-- ==== Sys2Proof/Word.lean ====
section
/-! DEFINITION. The word types, the closed vocabularies of the spec (10_state.md R23, 30_encoding.md R104) and the form in
which memory is held. -/

namespace Sys2Proof

/-- An 8-bit register, a bus byte, an opcode (00_scope.md R6). -/
abbrev Byte := BitVec 8

/-- A 16-bit register: SP, PC, a pair view (00_scope.md R6). -/
abbrev Word := BitVec 16

/-- Memory: (address, byte) pairs. `Machine/Memory.lean` gives its one canonical form. -/
abbrev Memory := List Host.Cell

/-- `RegisterType`, the fourteen register names of 10_state.md R23. -/
inductive RegisterType where
  | a | b | c | d | e | f | h | l
  | af | bc | de | hl | sp | pc
deriving DecidableEq, Repr

/-- The seven general 8-bit registers, the range of `r` and `r'` in 41_loads.md. F is never one of them (R152). -/
inductive R8 where
  | a | b | c | d | e | h | l
deriving DecidableEq, Repr

/-- The 16-bit registers an instruction names, the range of `rr` in 41_loads.md. -/
inductive R16 where
  | bc | de | hl | sp
deriving DecidableEq, Repr

/-- `InstructionCondition` of 30_encoding.md R104; an absent condition is `none` of `Option Cond`. -/
inductive Cond where
  | nz | z | nc | c
deriving DecidableEq, Repr

/-- The four flags by name (10_state.md R22, R31). -/
inductive Flag where
  | z | n | h | c
deriving DecidableEq, Repr

/-- The direction an `AddressError` names (60_exceptions.md R300). -/
inductive AccessDir where
  | read | write
deriving DecidableEq, Repr

/-- Operation kinds, 30_encoding.md R104. -/
inductive OpKind where
  | nop | stop | ld | add | inc | dec | daa | cpl | scf | rlca | rrca | rla | rra | jr
deriving DecidableEq, Repr

/-- Addressing modes, 30_encoding.md R104, in the order of its table. -/
inductive AddrMode where
  | none
  | reg
  | pair
  | memPair
  | imm8ToReg
  | imm16ToReg
  | regToReg
  | pairToPair
  | memPairToReg
  | regToMemPair
  | memPairToRegInc
  | memPairToRegDec
  | pairToMemImm16
  | rel8
deriving DecidableEq, Repr

/-- The five formats of 30_encoding.md R101. -/
inductive Format where
  | op | opD8 | opE8 | opD16 | opA16
deriving DecidableEq, Repr

/-- An entry of the "source" or "destination" column of 30_encoding.md R105: nothing, a register, or the fetched
immediate. -/
inductive OperandField where
  | absent
  | reg (r : RegisterType)
  | d8 | d16 | e8 | a16
deriving DecidableEq, Repr

/-- The Instruction tuple of 30_encoding.md R104, its six fields. -/
structure Tuple where
  kind : OpKind
  mode : AddrMode
  source : OperandField
  destination : OperandField
  condition : Option Cond
  /-- The "optional 1-byte immediate": "a constant stored in the table entry, not a byte fetched from memory; no admitted instruction
  uses it" (30_encoding.md R102). -/
  immediate : Option Byte
deriving DecidableEq, Repr

end Sys2Proof
end

