-- ==== Sys2Proof/Syntax.lean ====
section
/-! DEFINITION. The instructions: one constructor per row of `spec/opcode_table.json`, in the table's order
(30_encoding.md R105). Destination before source, `At` for the byte at an address (R111). An immediate stands as it is fetched:
`d8` and `e8` one byte, `d16` and `a16` the assembled word (R102). -/

namespace Sys2Proof

/-- The 131 instructions of 30_encoding.md R105. -/
inductive Instr where
  /-- 0x00 `NOP`, R270. -/
  | nop
  /-- 0x01 `LD BC,d16`, R151. -/
  | ldBC_d16 (d16 : Word)
  /-- 0x02 `LD (BC),A`, R157. -/
  | ldAtBC_A
  /-- 0x03 `INC BC`, R212. -/
  | incBC
  /-- 0x04 `INC B`, R210. -/
  | incB
  /-- 0x05 `DEC B`, R211. -/
  | decB
  /-- 0x06 `LD B,d8`, R150. -/
  | ldB_d8 (d8 : Byte)
  /-- 0x07 `RLCA`, R240. -/
  | rlca
  /-- 0x08 `LD (a16),SP`, R162. -/
  | ldAtA16_SP (a16 : Word)
  /-- 0x09 `ADD HL,BC`, R201. -/
  | addHL_BC
  /-- 0x0A `LD A,(BC)`, R154. -/
  | ldA_AtBC
  /-- 0x0B `DEC BC`, R213. -/
  | decBC
  /-- 0x0C `INC C`, R210. -/
  | incC
  /-- 0x0D `DEC C`, R211. -/
  | decC
  /-- 0x0E `LD C,d8`, R150. -/
  | ldC_d8 (d8 : Byte)
  /-- 0x0F `RRCA`, R241. -/
  | rrca
  /-- 0x10 `STOP`, R271. -/
  | stop
  /-- 0x11 `LD DE,d16`, R151. -/
  | ldDE_d16 (d16 : Word)
  /-- 0x12 `LD (DE),A`, R158. -/
  | ldAtDE_A
  /-- 0x13 `INC DE`, R212. -/
  | incDE
  /-- 0x14 `INC D`, R210. -/
  | incD
  /-- 0x15 `DEC D`, R211. -/
  | decD
  /-- 0x16 `LD D,d8`, R150. -/
  | ldD_d8 (d8 : Byte)
  /-- 0x17 `RLA`, R242. -/
  | rla
  /-- 0x18 `JR e8`, R250. -/
  | jr (e8 : Byte)
  /-- 0x19 `ADD HL,DE`, R201. -/
  | addHL_DE
  /-- 0x1A `LD A,(DE)`, R155. -/
  | ldA_AtDE
  /-- 0x1B `DEC DE`, R213. -/
  | decDE
  /-- 0x1C `INC E`, R210. -/
  | incE
  /-- 0x1D `DEC E`, R211. -/
  | decE
  /-- 0x1E `LD E,d8`, R150. -/
  | ldE_d8 (d8 : Byte)
  /-- 0x1F `RRA`, R243. -/
  | rra
  /-- 0x20 `JR NZ,e8`, R251. -/
  | jrNZ (e8 : Byte)
  /-- 0x21 `LD HL,d16`, R151. -/
  | ldHL_d16 (d16 : Word)
  /-- 0x23 `INC HL`, R212. -/
  | incHL
  /-- 0x24 `INC H`, R210. -/
  | incH
  /-- 0x25 `DEC H`, R211. -/
  | decH
  /-- 0x26 `LD H,d8`, R150. -/
  | ldH_d8 (d8 : Byte)
  /-- 0x27 `DAA`, R230. -/
  | daa
  /-- 0x28 `JR Z,e8`, R252. -/
  | jrZ (e8 : Byte)
  /-- 0x29 `ADD HL,HL`, R201. -/
  | addHL_HL
  /-- 0x2A `LD A,(HL+)`, R160. -/
  | ldA_AtHLInc
  /-- 0x2B `DEC HL`, R213. -/
  | decHL
  /-- 0x2C `INC L`, R210. -/
  | incL
  /-- 0x2D `DEC L`, R211. -/
  | decL
  /-- 0x2E `LD L,d8`, R150. -/
  | ldL_d8 (d8 : Byte)
  /-- 0x2F `CPL`, R231. -/
  | cpl
  /-- 0x30 `JR NC,e8`, R253. -/
  | jrNC (e8 : Byte)
  /-- 0x31 `LD SP,d16`, R151. -/
  | ldSP_d16 (d16 : Word)
  /-- 0x33 `INC SP`, R212. -/
  | incSP
  /-- 0x34 `INC (HL)`, R214. -/
  | incAtHL
  /-- 0x35 `DEC (HL)`, R215. -/
  | decAtHL
  /-- 0x37 `SCF`, R232. -/
  | scf
  /-- 0x38 `JR C,e8`, R254. -/
  | jrC (e8 : Byte)
  /-- 0x39 `ADD HL,SP`, R201. -/
  | addHL_SP
  /-- 0x3A `LD A,(HL-)`, R161. -/
  | ldA_AtHLDec
  /-- 0x3B `DEC SP`, R213. -/
  | decSP
  /-- 0x3C `INC A`, R210. -/
  | incA
  /-- 0x3D `DEC A`, R211. -/
  | decA
  /-- 0x3E `LD A,d8`, R150. -/
  | ldA_d8 (d8 : Byte)
  /-- 0x40 `LD B,B`, R152. -/
  | ldB_B
  /-- 0x41 `LD B,C`, R152. -/
  | ldB_C
  /-- 0x42 `LD B,D`, R152. -/
  | ldB_D
  /-- 0x43 `LD B,E`, R152. -/
  | ldB_E
  /-- 0x44 `LD B,H`, R152. -/
  | ldB_H
  /-- 0x45 `LD B,L`, R152. -/
  | ldB_L
  /-- 0x46 `LD B,(HL)`, R156. -/
  | ldB_AtHL
  /-- 0x47 `LD B,A`, R152. -/
  | ldB_A
  /-- 0x48 `LD C,B`, R152. -/
  | ldC_B
  /-- 0x49 `LD C,C`, R152. -/
  | ldC_C
  /-- 0x4A `LD C,D`, R152. -/
  | ldC_D
  /-- 0x4B `LD C,E`, R152. -/
  | ldC_E
  /-- 0x4C `LD C,H`, R152. -/
  | ldC_H
  /-- 0x4D `LD C,L`, R152. -/
  | ldC_L
  /-- 0x4E `LD C,(HL)`, R156. -/
  | ldC_AtHL
  /-- 0x4F `LD C,A`, R152. -/
  | ldC_A
  /-- 0x50 `LD D,B`, R152. -/
  | ldD_B
  /-- 0x51 `LD D,C`, R152. -/
  | ldD_C
  /-- 0x52 `LD D,D`, R152. -/
  | ldD_D
  /-- 0x53 `LD D,E`, R152. -/
  | ldD_E
  /-- 0x54 `LD D,H`, R152. -/
  | ldD_H
  /-- 0x55 `LD D,L`, R152. -/
  | ldD_L
  /-- 0x56 `LD D,(HL)`, R156. -/
  | ldD_AtHL
  /-- 0x57 `LD D,A`, R152. -/
  | ldD_A
  /-- 0x58 `LD E,B`, R152. -/
  | ldE_B
  /-- 0x59 `LD E,C`, R152. -/
  | ldE_C
  /-- 0x5A `LD E,D`, R152. -/
  | ldE_D
  /-- 0x5B `LD E,E`, R152. -/
  | ldE_E
  /-- 0x5C `LD E,H`, R152. -/
  | ldE_H
  /-- 0x5D `LD E,L`, R152. -/
  | ldE_L
  /-- 0x5E `LD E,(HL)`, R156. -/
  | ldE_AtHL
  /-- 0x5F `LD E,A`, R152. -/
  | ldE_A
  /-- 0x60 `LD H,B`, R152. -/
  | ldH_B
  /-- 0x61 `LD H,C`, R152. -/
  | ldH_C
  /-- 0x62 `LD H,D`, R152. -/
  | ldH_D
  /-- 0x63 `LD H,E`, R152. -/
  | ldH_E
  /-- 0x64 `LD H,H`, R152. -/
  | ldH_H
  /-- 0x65 `LD H,L`, R152. -/
  | ldH_L
  /-- 0x66 `LD H,(HL)`, R156. -/
  | ldH_AtHL
  /-- 0x67 `LD H,A`, R152. -/
  | ldH_A
  /-- 0x68 `LD L,B`, R152. -/
  | ldL_B
  /-- 0x69 `LD L,C`, R152. -/
  | ldL_C
  /-- 0x6A `LD L,D`, R152. -/
  | ldL_D
  /-- 0x6B `LD L,E`, R152. -/
  | ldL_E
  /-- 0x6C `LD L,H`, R152. -/
  | ldL_H
  /-- 0x6D `LD L,L`, R152. -/
  | ldL_L
  /-- 0x6E `LD L,(HL)`, R156. -/
  | ldL_AtHL
  /-- 0x6F `LD L,A`, R152. -/
  | ldL_A
  /-- 0x70 `LD (HL),B`, R159. -/
  | ldAtHL_B
  /-- 0x71 `LD (HL),C`, R159. -/
  | ldAtHL_C
  /-- 0x72 `LD (HL),D`, R159. -/
  | ldAtHL_D
  /-- 0x73 `LD (HL),E`, R159. -/
  | ldAtHL_E
  /-- 0x74 `LD (HL),H`, R159. -/
  | ldAtHL_H
  /-- 0x75 `LD (HL),L`, R159. -/
  | ldAtHL_L
  /-- 0x77 `LD (HL),A`, R159. -/
  | ldAtHL_A
  /-- 0x78 `LD A,B`, R152. -/
  | ldA_B
  /-- 0x79 `LD A,C`, R152. -/
  | ldA_C
  /-- 0x7A `LD A,D`, R152. -/
  | ldA_D
  /-- 0x7B `LD A,E`, R152. -/
  | ldA_E
  /-- 0x7C `LD A,H`, R152. -/
  | ldA_H
  /-- 0x7D `LD A,L`, R152. -/
  | ldA_L
  /-- 0x7E `LD A,(HL)`, R156. -/
  | ldA_AtHL
  /-- 0x7F `LD A,A`, R152. -/
  | ldA_A
  /-- 0x80 `ADD A,B`, R200. -/
  | addA_B
  /-- 0x81 `ADD A,C`, R200. -/
  | addA_C
  /-- 0x82 `ADD A,D`, R200. -/
  | addA_D
  /-- 0x83 `ADD A,E`, R200. -/
  | addA_E
  /-- 0x84 `ADD A,H`, R200. -/
  | addA_H
  /-- 0x85 `ADD A,L`, R200. -/
  | addA_L
  /-- 0x87 `ADD A,A`, R200. -/
  | addA_A
  /-- 0xF9 `LD SP,HL`, R153. -/
  | ldSP_HL
deriving DecidableEq, Repr

end Sys2Proof
end

