-- ==== Sys2Proof/Decode.lean ====
section
/-! DEFINITION. The `decoder` (30_encoding.md): the Instruction tuples, the opcode table as a list, decoding of any bytes
with rejection by name, and the encoder. -/

namespace Sys2Proof

/-- The low byte, bits 7 to 0, of a 16-bit value. -/
def lowByte (w : Word) : Byte := w.extractLsb' 0 8

/-- The high byte, bits 15 to 8, of a 16-bit value. -/
def highByte (w : Word) : Byte := w.extractLsb' 8 8

/-- Assembly of `d16` and `a16` (30_encoding.md R102, 20_memory.md R78): the first byte fetched is the low byte.
PRESUMED by the spec from the SM83 (92_eei_decisions.md D3): log 11. -/
def assemble16 (b1 b2 : Byte) : Word := b2 ++ b1

/-- How many immediate bytes a mode makes the fetch unit read (30_encoding.md R104, third column). -/
def AddrMode.immBytes : AddrMode → Nat
  | .none | .reg | .pair | .memPair => 0
  | .imm8ToReg => 1
  | .imm16ToReg => 2
  | .regToReg | .pairToPair | .memPairToReg | .regToMemPair | .memPairToRegInc | .memPairToRegDec => 0
  | .pairToMemImm16 => 2
  | .rel8 => 1

/-- The format a mode gives its instruction (30_encoding.md R101, last column). -/
def AddrMode.format : AddrMode → Format
  | .none | .reg | .pair | .memPair => .op
  | .imm8ToReg => .opD8
  | .imm16ToReg => .opD16
  | .regToReg | .pairToPair | .memPairToReg | .regToMemPair | .memPairToRegInc | .memPairToRegDec => .op
  | .pairToMemImm16 => .opA16
  | .rel8 => .opE8

/-- The length in bytes of a format (30_encoding.md R101). -/
def Format.length : Format → Nat
  | .op => 1
  | .opD8 | .opE8 => 2
  | .opD16 | .opA16 => 3

/-- The Instruction tuple of each instruction: the columns kind, mode, source, destination and condition of
30_encoding.md R105, and the constant immediate, absent in every row (R102; DEDUCED, safe: log 26). -/
def Instr.tuple : Instr → Tuple
  | .nop => ⟨.nop, .none, .absent, .absent, none, none⟩
  | .ldBC_d16 _ => ⟨.ld, .imm16ToReg, .d16, .reg .bc, none, none⟩
  | .ldAtBC_A => ⟨.ld, .regToMemPair, .reg .a, .reg .bc, none, none⟩
  | .incBC => ⟨.inc, .pair, .reg .bc, .reg .bc, none, none⟩
  | .incB => ⟨.inc, .reg, .reg .b, .reg .b, none, none⟩
  | .decB => ⟨.dec, .reg, .reg .b, .reg .b, none, none⟩
  | .ldB_d8 _ => ⟨.ld, .imm8ToReg, .d8, .reg .b, none, none⟩
  | .rlca => ⟨.rlca, .none, .reg .a, .reg .a, none, none⟩
  | .ldAtA16_SP _ => ⟨.ld, .pairToMemImm16, .reg .sp, .a16, none, none⟩
  | .addHL_BC => ⟨.add, .pairToPair, .reg .bc, .reg .hl, none, none⟩
  | .ldA_AtBC => ⟨.ld, .memPairToReg, .reg .bc, .reg .a, none, none⟩
  | .decBC => ⟨.dec, .pair, .reg .bc, .reg .bc, none, none⟩
  | .incC => ⟨.inc, .reg, .reg .c, .reg .c, none, none⟩
  | .decC => ⟨.dec, .reg, .reg .c, .reg .c, none, none⟩
  | .ldC_d8 _ => ⟨.ld, .imm8ToReg, .d8, .reg .c, none, none⟩
  | .rrca => ⟨.rrca, .none, .reg .a, .reg .a, none, none⟩
  | .stop => ⟨.stop, .none, .absent, .absent, none, none⟩
  | .ldDE_d16 _ => ⟨.ld, .imm16ToReg, .d16, .reg .de, none, none⟩
  | .ldAtDE_A => ⟨.ld, .regToMemPair, .reg .a, .reg .de, none, none⟩
  | .incDE => ⟨.inc, .pair, .reg .de, .reg .de, none, none⟩
  | .incD => ⟨.inc, .reg, .reg .d, .reg .d, none, none⟩
  | .decD => ⟨.dec, .reg, .reg .d, .reg .d, none, none⟩
  | .ldD_d8 _ => ⟨.ld, .imm8ToReg, .d8, .reg .d, none, none⟩
  | .rla => ⟨.rla, .none, .reg .a, .reg .a, none, none⟩
  | .jr _ => ⟨.jr, .rel8, .e8, .reg .pc, none, none⟩
  | .addHL_DE => ⟨.add, .pairToPair, .reg .de, .reg .hl, none, none⟩
  | .ldA_AtDE => ⟨.ld, .memPairToReg, .reg .de, .reg .a, none, none⟩
  | .decDE => ⟨.dec, .pair, .reg .de, .reg .de, none, none⟩
  | .incE => ⟨.inc, .reg, .reg .e, .reg .e, none, none⟩
  | .decE => ⟨.dec, .reg, .reg .e, .reg .e, none, none⟩
  | .ldE_d8 _ => ⟨.ld, .imm8ToReg, .d8, .reg .e, none, none⟩
  | .rra => ⟨.rra, .none, .reg .a, .reg .a, none, none⟩
  | .jrNZ _ => ⟨.jr, .rel8, .e8, .reg .pc, some .nz, none⟩
  | .ldHL_d16 _ => ⟨.ld, .imm16ToReg, .d16, .reg .hl, none, none⟩
  | .incHL => ⟨.inc, .pair, .reg .hl, .reg .hl, none, none⟩
  | .incH => ⟨.inc, .reg, .reg .h, .reg .h, none, none⟩
  | .decH => ⟨.dec, .reg, .reg .h, .reg .h, none, none⟩
  | .ldH_d8 _ => ⟨.ld, .imm8ToReg, .d8, .reg .h, none, none⟩
  | .daa => ⟨.daa, .none, .reg .a, .reg .a, none, none⟩
  | .jrZ _ => ⟨.jr, .rel8, .e8, .reg .pc, some .z, none⟩
  | .addHL_HL => ⟨.add, .pairToPair, .reg .hl, .reg .hl, none, none⟩
  | .ldA_AtHLInc => ⟨.ld, .memPairToRegInc, .reg .hl, .reg .a, none, none⟩
  | .decHL => ⟨.dec, .pair, .reg .hl, .reg .hl, none, none⟩
  | .incL => ⟨.inc, .reg, .reg .l, .reg .l, none, none⟩
  | .decL => ⟨.dec, .reg, .reg .l, .reg .l, none, none⟩
  | .ldL_d8 _ => ⟨.ld, .imm8ToReg, .d8, .reg .l, none, none⟩
  | .cpl => ⟨.cpl, .none, .reg .a, .reg .a, none, none⟩
  | .jrNC _ => ⟨.jr, .rel8, .e8, .reg .pc, some .nc, none⟩
  | .ldSP_d16 _ => ⟨.ld, .imm16ToReg, .d16, .reg .sp, none, none⟩
  | .incSP => ⟨.inc, .pair, .reg .sp, .reg .sp, none, none⟩
  | .incAtHL => ⟨.inc, .memPair, .reg .hl, .reg .hl, none, none⟩
  | .decAtHL => ⟨.dec, .memPair, .reg .hl, .reg .hl, none, none⟩
  | .scf => ⟨.scf, .none, .absent, .absent, none, none⟩
  | .jrC _ => ⟨.jr, .rel8, .e8, .reg .pc, some .c, none⟩
  | .addHL_SP => ⟨.add, .pairToPair, .reg .sp, .reg .hl, none, none⟩
  | .ldA_AtHLDec => ⟨.ld, .memPairToRegDec, .reg .hl, .reg .a, none, none⟩
  | .decSP => ⟨.dec, .pair, .reg .sp, .reg .sp, none, none⟩
  | .incA => ⟨.inc, .reg, .reg .a, .reg .a, none, none⟩
  | .decA => ⟨.dec, .reg, .reg .a, .reg .a, none, none⟩
  | .ldA_d8 _ => ⟨.ld, .imm8ToReg, .d8, .reg .a, none, none⟩
  | .ldB_B => ⟨.ld, .regToReg, .reg .b, .reg .b, none, none⟩
  | .ldB_C => ⟨.ld, .regToReg, .reg .c, .reg .b, none, none⟩
  | .ldB_D => ⟨.ld, .regToReg, .reg .d, .reg .b, none, none⟩
  | .ldB_E => ⟨.ld, .regToReg, .reg .e, .reg .b, none, none⟩
  | .ldB_H => ⟨.ld, .regToReg, .reg .h, .reg .b, none, none⟩
  | .ldB_L => ⟨.ld, .regToReg, .reg .l, .reg .b, none, none⟩
  | .ldB_AtHL => ⟨.ld, .memPairToReg, .reg .hl, .reg .b, none, none⟩
  | .ldB_A => ⟨.ld, .regToReg, .reg .a, .reg .b, none, none⟩
  | .ldC_B => ⟨.ld, .regToReg, .reg .b, .reg .c, none, none⟩
  | .ldC_C => ⟨.ld, .regToReg, .reg .c, .reg .c, none, none⟩
  | .ldC_D => ⟨.ld, .regToReg, .reg .d, .reg .c, none, none⟩
  | .ldC_E => ⟨.ld, .regToReg, .reg .e, .reg .c, none, none⟩
  | .ldC_H => ⟨.ld, .regToReg, .reg .h, .reg .c, none, none⟩
  | .ldC_L => ⟨.ld, .regToReg, .reg .l, .reg .c, none, none⟩
  | .ldC_AtHL => ⟨.ld, .memPairToReg, .reg .hl, .reg .c, none, none⟩
  | .ldC_A => ⟨.ld, .regToReg, .reg .a, .reg .c, none, none⟩
  | .ldD_B => ⟨.ld, .regToReg, .reg .b, .reg .d, none, none⟩
  | .ldD_C => ⟨.ld, .regToReg, .reg .c, .reg .d, none, none⟩
  | .ldD_D => ⟨.ld, .regToReg, .reg .d, .reg .d, none, none⟩
  | .ldD_E => ⟨.ld, .regToReg, .reg .e, .reg .d, none, none⟩
  | .ldD_H => ⟨.ld, .regToReg, .reg .h, .reg .d, none, none⟩
  | .ldD_L => ⟨.ld, .regToReg, .reg .l, .reg .d, none, none⟩
  | .ldD_AtHL => ⟨.ld, .memPairToReg, .reg .hl, .reg .d, none, none⟩
  | .ldD_A => ⟨.ld, .regToReg, .reg .a, .reg .d, none, none⟩
  | .ldE_B => ⟨.ld, .regToReg, .reg .b, .reg .e, none, none⟩
  | .ldE_C => ⟨.ld, .regToReg, .reg .c, .reg .e, none, none⟩
  | .ldE_D => ⟨.ld, .regToReg, .reg .d, .reg .e, none, none⟩
  | .ldE_E => ⟨.ld, .regToReg, .reg .e, .reg .e, none, none⟩
  | .ldE_H => ⟨.ld, .regToReg, .reg .h, .reg .e, none, none⟩
  | .ldE_L => ⟨.ld, .regToReg, .reg .l, .reg .e, none, none⟩
  | .ldE_AtHL => ⟨.ld, .memPairToReg, .reg .hl, .reg .e, none, none⟩
  | .ldE_A => ⟨.ld, .regToReg, .reg .a, .reg .e, none, none⟩
  | .ldH_B => ⟨.ld, .regToReg, .reg .b, .reg .h, none, none⟩
  | .ldH_C => ⟨.ld, .regToReg, .reg .c, .reg .h, none, none⟩
  | .ldH_D => ⟨.ld, .regToReg, .reg .d, .reg .h, none, none⟩
  | .ldH_E => ⟨.ld, .regToReg, .reg .e, .reg .h, none, none⟩
  | .ldH_H => ⟨.ld, .regToReg, .reg .h, .reg .h, none, none⟩
  | .ldH_L => ⟨.ld, .regToReg, .reg .l, .reg .h, none, none⟩
  | .ldH_AtHL => ⟨.ld, .memPairToReg, .reg .hl, .reg .h, none, none⟩
  | .ldH_A => ⟨.ld, .regToReg, .reg .a, .reg .h, none, none⟩
  | .ldL_B => ⟨.ld, .regToReg, .reg .b, .reg .l, none, none⟩
  | .ldL_C => ⟨.ld, .regToReg, .reg .c, .reg .l, none, none⟩
  | .ldL_D => ⟨.ld, .regToReg, .reg .d, .reg .l, none, none⟩
  | .ldL_E => ⟨.ld, .regToReg, .reg .e, .reg .l, none, none⟩
  | .ldL_H => ⟨.ld, .regToReg, .reg .h, .reg .l, none, none⟩
  | .ldL_L => ⟨.ld, .regToReg, .reg .l, .reg .l, none, none⟩
  | .ldL_AtHL => ⟨.ld, .memPairToReg, .reg .hl, .reg .l, none, none⟩
  | .ldL_A => ⟨.ld, .regToReg, .reg .a, .reg .l, none, none⟩
  | .ldAtHL_B => ⟨.ld, .regToMemPair, .reg .b, .reg .hl, none, none⟩
  | .ldAtHL_C => ⟨.ld, .regToMemPair, .reg .c, .reg .hl, none, none⟩
  | .ldAtHL_D => ⟨.ld, .regToMemPair, .reg .d, .reg .hl, none, none⟩
  | .ldAtHL_E => ⟨.ld, .regToMemPair, .reg .e, .reg .hl, none, none⟩
  | .ldAtHL_H => ⟨.ld, .regToMemPair, .reg .h, .reg .hl, none, none⟩
  | .ldAtHL_L => ⟨.ld, .regToMemPair, .reg .l, .reg .hl, none, none⟩
  | .ldAtHL_A => ⟨.ld, .regToMemPair, .reg .a, .reg .hl, none, none⟩
  | .ldA_B => ⟨.ld, .regToReg, .reg .b, .reg .a, none, none⟩
  | .ldA_C => ⟨.ld, .regToReg, .reg .c, .reg .a, none, none⟩
  | .ldA_D => ⟨.ld, .regToReg, .reg .d, .reg .a, none, none⟩
  | .ldA_E => ⟨.ld, .regToReg, .reg .e, .reg .a, none, none⟩
  | .ldA_H => ⟨.ld, .regToReg, .reg .h, .reg .a, none, none⟩
  | .ldA_L => ⟨.ld, .regToReg, .reg .l, .reg .a, none, none⟩
  | .ldA_AtHL => ⟨.ld, .memPairToReg, .reg .hl, .reg .a, none, none⟩
  | .ldA_A => ⟨.ld, .regToReg, .reg .a, .reg .a, none, none⟩
  | .addA_B => ⟨.add, .regToReg, .reg .b, .reg .a, none, none⟩
  | .addA_C => ⟨.add, .regToReg, .reg .c, .reg .a, none, none⟩
  | .addA_D => ⟨.add, .regToReg, .reg .d, .reg .a, none, none⟩
  | .addA_E => ⟨.add, .regToReg, .reg .e, .reg .a, none, none⟩
  | .addA_H => ⟨.add, .regToReg, .reg .h, .reg .a, none, none⟩
  | .addA_L => ⟨.add, .regToReg, .reg .l, .reg .a, none, none⟩
  | .addA_A => ⟨.add, .regToReg, .reg .a, .reg .a, none, none⟩
  | .ldSP_HL => ⟨.ld, .pairToPair, .reg .hl, .reg .sp, none, none⟩

/-- The length of an instruction in bytes (30_encoding.md R100): the opcode and its immediates. -/
def Instr.length (i : Instr) : Nat := i.tuple.mode.format.length

/-- An entry of the opcode table: the opcode byte and the instruction it stands for, as a function of the immediate
bytes `b1` and `b2` (30_encoding.md R102); an entry without immediates ignores them. -/
abbrev OpcodeEntry := Byte × (Byte → Byte → Instr)

/-- Row 0x of the grid of 30_encoding.md R106. -/
def opcodeRow0x : List OpcodeEntry := [
  (0x00#8, fun _ _ => .nop),
  (0x01#8, fun b1 b2 => .ldBC_d16 (assemble16 b1 b2)),
  (0x02#8, fun _ _ => .ldAtBC_A),
  (0x03#8, fun _ _ => .incBC),
  (0x04#8, fun _ _ => .incB),
  (0x05#8, fun _ _ => .decB),
  (0x06#8, fun b1 _ => .ldB_d8 b1),
  (0x07#8, fun _ _ => .rlca),
  (0x08#8, fun b1 b2 => .ldAtA16_SP (assemble16 b1 b2)),
  (0x09#8, fun _ _ => .addHL_BC),
  (0x0A#8, fun _ _ => .ldA_AtBC),
  (0x0B#8, fun _ _ => .decBC),
  (0x0C#8, fun _ _ => .incC),
  (0x0D#8, fun _ _ => .decC),
  (0x0E#8, fun b1 _ => .ldC_d8 b1),
  (0x0F#8, fun _ _ => .rrca)]

/-- Row 1x of the grid of 30_encoding.md R106. -/
def opcodeRow1x : List OpcodeEntry := [
  (0x10#8, fun _ _ => .stop),
  (0x11#8, fun b1 b2 => .ldDE_d16 (assemble16 b1 b2)),
  (0x12#8, fun _ _ => .ldAtDE_A),
  (0x13#8, fun _ _ => .incDE),
  (0x14#8, fun _ _ => .incD),
  (0x15#8, fun _ _ => .decD),
  (0x16#8, fun b1 _ => .ldD_d8 b1),
  (0x17#8, fun _ _ => .rla),
  (0x18#8, fun b1 _ => .jr b1),
  (0x19#8, fun _ _ => .addHL_DE),
  (0x1A#8, fun _ _ => .ldA_AtDE),
  (0x1B#8, fun _ _ => .decDE),
  (0x1C#8, fun _ _ => .incE),
  (0x1D#8, fun _ _ => .decE),
  (0x1E#8, fun b1 _ => .ldE_d8 b1),
  (0x1F#8, fun _ _ => .rra)]

/-- Row 2x of the grid of 30_encoding.md R106. -/
def opcodeRow2x : List OpcodeEntry := [
  (0x20#8, fun b1 _ => .jrNZ b1),
  (0x21#8, fun b1 b2 => .ldHL_d16 (assemble16 b1 b2)),
  (0x23#8, fun _ _ => .incHL),
  (0x24#8, fun _ _ => .incH),
  (0x25#8, fun _ _ => .decH),
  (0x26#8, fun b1 _ => .ldH_d8 b1),
  (0x27#8, fun _ _ => .daa),
  (0x28#8, fun b1 _ => .jrZ b1),
  (0x29#8, fun _ _ => .addHL_HL),
  (0x2A#8, fun _ _ => .ldA_AtHLInc),
  (0x2B#8, fun _ _ => .decHL),
  (0x2C#8, fun _ _ => .incL),
  (0x2D#8, fun _ _ => .decL),
  (0x2E#8, fun b1 _ => .ldL_d8 b1),
  (0x2F#8, fun _ _ => .cpl)]

/-- Row 3x of the grid of 30_encoding.md R106. -/
def opcodeRow3x : List OpcodeEntry := [
  (0x30#8, fun b1 _ => .jrNC b1),
  (0x31#8, fun b1 b2 => .ldSP_d16 (assemble16 b1 b2)),
  (0x33#8, fun _ _ => .incSP),
  (0x34#8, fun _ _ => .incAtHL),
  (0x35#8, fun _ _ => .decAtHL),
  (0x37#8, fun _ _ => .scf),
  (0x38#8, fun b1 _ => .jrC b1),
  (0x39#8, fun _ _ => .addHL_SP),
  (0x3A#8, fun _ _ => .ldA_AtHLDec),
  (0x3B#8, fun _ _ => .decSP),
  (0x3C#8, fun _ _ => .incA),
  (0x3D#8, fun _ _ => .decA),
  (0x3E#8, fun b1 _ => .ldA_d8 b1)]

/-- Row 4x of the grid of 30_encoding.md R106. -/
def opcodeRow4x : List OpcodeEntry := [
  (0x40#8, fun _ _ => .ldB_B),
  (0x41#8, fun _ _ => .ldB_C),
  (0x42#8, fun _ _ => .ldB_D),
  (0x43#8, fun _ _ => .ldB_E),
  (0x44#8, fun _ _ => .ldB_H),
  (0x45#8, fun _ _ => .ldB_L),
  (0x46#8, fun _ _ => .ldB_AtHL),
  (0x47#8, fun _ _ => .ldB_A),
  (0x48#8, fun _ _ => .ldC_B),
  (0x49#8, fun _ _ => .ldC_C),
  (0x4A#8, fun _ _ => .ldC_D),
  (0x4B#8, fun _ _ => .ldC_E),
  (0x4C#8, fun _ _ => .ldC_H),
  (0x4D#8, fun _ _ => .ldC_L),
  (0x4E#8, fun _ _ => .ldC_AtHL),
  (0x4F#8, fun _ _ => .ldC_A)]

/-- Row 5x of the grid of 30_encoding.md R106. -/
def opcodeRow5x : List OpcodeEntry := [
  (0x50#8, fun _ _ => .ldD_B),
  (0x51#8, fun _ _ => .ldD_C),
  (0x52#8, fun _ _ => .ldD_D),
  (0x53#8, fun _ _ => .ldD_E),
  (0x54#8, fun _ _ => .ldD_H),
  (0x55#8, fun _ _ => .ldD_L),
  (0x56#8, fun _ _ => .ldD_AtHL),
  (0x57#8, fun _ _ => .ldD_A),
  (0x58#8, fun _ _ => .ldE_B),
  (0x59#8, fun _ _ => .ldE_C),
  (0x5A#8, fun _ _ => .ldE_D),
  (0x5B#8, fun _ _ => .ldE_E),
  (0x5C#8, fun _ _ => .ldE_H),
  (0x5D#8, fun _ _ => .ldE_L),
  (0x5E#8, fun _ _ => .ldE_AtHL),
  (0x5F#8, fun _ _ => .ldE_A)]

/-- Row 6x of the grid of 30_encoding.md R106. -/
def opcodeRow6x : List OpcodeEntry := [
  (0x60#8, fun _ _ => .ldH_B),
  (0x61#8, fun _ _ => .ldH_C),
  (0x62#8, fun _ _ => .ldH_D),
  (0x63#8, fun _ _ => .ldH_E),
  (0x64#8, fun _ _ => .ldH_H),
  (0x65#8, fun _ _ => .ldH_L),
  (0x66#8, fun _ _ => .ldH_AtHL),
  (0x67#8, fun _ _ => .ldH_A),
  (0x68#8, fun _ _ => .ldL_B),
  (0x69#8, fun _ _ => .ldL_C),
  (0x6A#8, fun _ _ => .ldL_D),
  (0x6B#8, fun _ _ => .ldL_E),
  (0x6C#8, fun _ _ => .ldL_H),
  (0x6D#8, fun _ _ => .ldL_L),
  (0x6E#8, fun _ _ => .ldL_AtHL),
  (0x6F#8, fun _ _ => .ldL_A)]

/-- Row 7x of the grid of 30_encoding.md R106. -/
def opcodeRow7x : List OpcodeEntry := [
  (0x70#8, fun _ _ => .ldAtHL_B),
  (0x71#8, fun _ _ => .ldAtHL_C),
  (0x72#8, fun _ _ => .ldAtHL_D),
  (0x73#8, fun _ _ => .ldAtHL_E),
  (0x74#8, fun _ _ => .ldAtHL_H),
  (0x75#8, fun _ _ => .ldAtHL_L),
  (0x77#8, fun _ _ => .ldAtHL_A),
  (0x78#8, fun _ _ => .ldA_B),
  (0x79#8, fun _ _ => .ldA_C),
  (0x7A#8, fun _ _ => .ldA_D),
  (0x7B#8, fun _ _ => .ldA_E),
  (0x7C#8, fun _ _ => .ldA_H),
  (0x7D#8, fun _ _ => .ldA_L),
  (0x7E#8, fun _ _ => .ldA_AtHL),
  (0x7F#8, fun _ _ => .ldA_A)]

/-- Row 8x of the grid of 30_encoding.md R106. -/
def opcodeRow8x : List OpcodeEntry := [
  (0x80#8, fun _ _ => .addA_B),
  (0x81#8, fun _ _ => .addA_C),
  (0x82#8, fun _ _ => .addA_D),
  (0x83#8, fun _ _ => .addA_E),
  (0x84#8, fun _ _ => .addA_H),
  (0x85#8, fun _ _ => .addA_L),
  (0x87#8, fun _ _ => .addA_A)]

/-- Row Fx of the grid of 30_encoding.md R106. -/
def opcodeRowFx : List OpcodeEntry := [
  (0xF9#8, fun _ _ => .ldSP_HL)]

/-- The opcode table of 30_encoding.md R105, "looked up, never mutated, by opcode" (R103). The numbers other than 0x10,
0x18 and 0x20 are PRESUMED by the spec from the SM83 (92_eei_decisions.md D1, D2): log 1. -/
def opcodeTable : List OpcodeEntry :=
  opcodeRow0x ++ opcodeRow1x ++ opcodeRow2x ++ opcodeRow3x ++ opcodeRow4x ++ opcodeRow5x ++ opcodeRow6x ++ opcodeRow7x ++ opcodeRow8x ++ opcodeRowFx

/-- The pure lookup of 30_encoding.md R103: the opcode's entry, or none for the 125 bytes of R107. -/
def lookup (op : Byte) : Option (Byte → Byte → Instr) :=
  (opcodeTable.find? fun row => row.1 == op).map fun row => row.2

/-- How many immediate bytes follow the opcode of a table entry: its mode says so (30_encoding.md R100). -/
def immediateCount (build : Byte → Byte → Instr) : Nat := (build 0 0).tuple.mode.immBytes

/-- Why bytes are no instruction. -/
inductive DecodeReject where
  /-- The opcode byte has no entry in the table: `DecodeError(op)` (30_encoding.md R107). -/
  | noEntry (op : Byte)
  /-- The list ends before the instruction does. The machine never meets this: it fetches each byte from memory. -/
  | truncated
deriving DecidableEq, Repr

/-- Decoding of a list of bytes: the instruction and the bytes after it, or the reason there is none
(30_encoding.md R100 to R103). -/
def decode : List Byte → Except DecodeReject (Instr × List Byte)
  | [] => .error .truncated
  | op :: rest =>
    match lookup op with
    | none => .error (.noEntry op)
    | some build =>
      match immediateCount build, rest with
      | 0, rest => .ok (build 0 0, rest)
      | 1, b1 :: rest => .ok (build b1 0, rest)
      | 2, b1 :: b2 :: rest => .ok (build b1 b2, rest)
      | _, _ => .error .truncated

/-- The bytes of an instruction, in ascending address order, from the opcode and format columns of
30_encoding.md R101 and R105. -/
def encode : Instr → List Byte
  | .nop => [0x00]
  | .ldBC_d16 d16 => [0x01, lowByte d16, highByte d16]
  | .ldAtBC_A => [0x02]
  | .incBC => [0x03]
  | .incB => [0x04]
  | .decB => [0x05]
  | .ldB_d8 d8 => [0x06, d8]
  | .rlca => [0x07]
  | .ldAtA16_SP a16 => [0x08, lowByte a16, highByte a16]
  | .addHL_BC => [0x09]
  | .ldA_AtBC => [0x0A]
  | .decBC => [0x0B]
  | .incC => [0x0C]
  | .decC => [0x0D]
  | .ldC_d8 d8 => [0x0E, d8]
  | .rrca => [0x0F]
  | .stop => [0x10]
  | .ldDE_d16 d16 => [0x11, lowByte d16, highByte d16]
  | .ldAtDE_A => [0x12]
  | .incDE => [0x13]
  | .incD => [0x14]
  | .decD => [0x15]
  | .ldD_d8 d8 => [0x16, d8]
  | .rla => [0x17]
  | .jr e8 => [0x18, e8]
  | .addHL_DE => [0x19]
  | .ldA_AtDE => [0x1A]
  | .decDE => [0x1B]
  | .incE => [0x1C]
  | .decE => [0x1D]
  | .ldE_d8 d8 => [0x1E, d8]
  | .rra => [0x1F]
  | .jrNZ e8 => [0x20, e8]
  | .ldHL_d16 d16 => [0x21, lowByte d16, highByte d16]
  | .incHL => [0x23]
  | .incH => [0x24]
  | .decH => [0x25]
  | .ldH_d8 d8 => [0x26, d8]
  | .daa => [0x27]
  | .jrZ e8 => [0x28, e8]
  | .addHL_HL => [0x29]
  | .ldA_AtHLInc => [0x2A]
  | .decHL => [0x2B]
  | .incL => [0x2C]
  | .decL => [0x2D]
  | .ldL_d8 d8 => [0x2E, d8]
  | .cpl => [0x2F]
  | .jrNC e8 => [0x30, e8]
  | .ldSP_d16 d16 => [0x31, lowByte d16, highByte d16]
  | .incSP => [0x33]
  | .incAtHL => [0x34]
  | .decAtHL => [0x35]
  | .scf => [0x37]
  | .jrC e8 => [0x38, e8]
  | .addHL_SP => [0x39]
  | .ldA_AtHLDec => [0x3A]
  | .decSP => [0x3B]
  | .incA => [0x3C]
  | .decA => [0x3D]
  | .ldA_d8 d8 => [0x3E, d8]
  | .ldB_B => [0x40]
  | .ldB_C => [0x41]
  | .ldB_D => [0x42]
  | .ldB_E => [0x43]
  | .ldB_H => [0x44]
  | .ldB_L => [0x45]
  | .ldB_AtHL => [0x46]
  | .ldB_A => [0x47]
  | .ldC_B => [0x48]
  | .ldC_C => [0x49]
  | .ldC_D => [0x4A]
  | .ldC_E => [0x4B]
  | .ldC_H => [0x4C]
  | .ldC_L => [0x4D]
  | .ldC_AtHL => [0x4E]
  | .ldC_A => [0x4F]
  | .ldD_B => [0x50]
  | .ldD_C => [0x51]
  | .ldD_D => [0x52]
  | .ldD_E => [0x53]
  | .ldD_H => [0x54]
  | .ldD_L => [0x55]
  | .ldD_AtHL => [0x56]
  | .ldD_A => [0x57]
  | .ldE_B => [0x58]
  | .ldE_C => [0x59]
  | .ldE_D => [0x5A]
  | .ldE_E => [0x5B]
  | .ldE_H => [0x5C]
  | .ldE_L => [0x5D]
  | .ldE_AtHL => [0x5E]
  | .ldE_A => [0x5F]
  | .ldH_B => [0x60]
  | .ldH_C => [0x61]
  | .ldH_D => [0x62]
  | .ldH_E => [0x63]
  | .ldH_H => [0x64]
  | .ldH_L => [0x65]
  | .ldH_AtHL => [0x66]
  | .ldH_A => [0x67]
  | .ldL_B => [0x68]
  | .ldL_C => [0x69]
  | .ldL_D => [0x6A]
  | .ldL_E => [0x6B]
  | .ldL_H => [0x6C]
  | .ldL_L => [0x6D]
  | .ldL_AtHL => [0x6E]
  | .ldL_A => [0x6F]
  | .ldAtHL_B => [0x70]
  | .ldAtHL_C => [0x71]
  | .ldAtHL_D => [0x72]
  | .ldAtHL_E => [0x73]
  | .ldAtHL_H => [0x74]
  | .ldAtHL_L => [0x75]
  | .ldAtHL_A => [0x77]
  | .ldA_B => [0x78]
  | .ldA_C => [0x79]
  | .ldA_D => [0x7A]
  | .ldA_E => [0x7B]
  | .ldA_H => [0x7C]
  | .ldA_L => [0x7D]
  | .ldA_AtHL => [0x7E]
  | .ldA_A => [0x7F]
  | .addA_B => [0x80]
  | .addA_C => [0x81]
  | .addA_D => [0x82]
  | .addA_E => [0x83]
  | .addA_H => [0x84]
  | .addA_L => [0x85]
  | .addA_A => [0x87]
  | .ldSP_HL => [0xF9]

/-- The opcode byte of an instruction: byte 0 of every format (30_encoding.md R101). -/
def Instr.opcode (i : Instr) : Byte := (encode i).headD 0

/-- Byte `k` of an instruction whose bits are `w`, bit 0 being the least significant bit of the first byte; every bit
from `nbits` up is 0. -/
def tableByte (nbits w k : Nat) : Byte := BitVec.ofNat 8 ((w % 2 ^ nbits) / 256 ^ k)

/-- The first three bytes, the longest instruction's length, of a table word. -/
def tableBytes (nbits w : Nat) : List Byte := [tableByte nbits w 0, tableByte nbits w 1, tableByte nbits w 2]

/-- The instruction the decoder reads from an instruction whose bits are `w`, numbered as the opcode table numbers them. -/
def decodeTableWord (nbits w : Nat) : Option Instr :=
  match decode (tableBytes nbits w) with
  | .ok (i, _) => some i
  | .error _ => none

end Sys2Proof
end

