-- ==== Sys2Proof/Machine/Memory.lean ====
section
/-! DEFINITION. Memory as a list of (address, byte) pairs in one canonical form: addresses strictly rising, no entry equal to
what an unlisted address reads as. -/

namespace Sys2Proof

/-- What an unlisted address reads as: the recommended default of `BUS_INIT` (00_scope.md R7). DESIGN CHOICE, unsafe:
log 2. -/
def Memory.unlisted : Byte := 0x00

/-- The canonical form. -/
abbrev Memory.wf (m : Memory) : Prop :=
  m.Pairwise (fun x y => x.1 < y.1) ∧ ∀ x ∈ m, x.2 ≠ Memory.unlisted

/-- The byte at an address. -/
def Memory.read : Memory → Nat → Byte
  | [], _ => Memory.unlisted
  | (k, v) :: rest, addr => if k = addr then v else Memory.read rest addr

/-- An entry in front of the higher ones, left out where it says what an unlisted address reads as. -/
def Memory.put (addr : Nat) (v : Byte) (higher : Memory) : Memory :=
  if v = Memory.unlisted then higher else (addr, v) :: higher

/-- The memory after one byte is stored. -/
def Memory.write : Memory → Nat → Byte → Memory
  | [], addr, v => Memory.put addr v []
  | (k, w) :: rest, addr, v =>
    if addr < k then Memory.put addr v ((k, w) :: rest)
    else if addr = k then Memory.put addr v rest
    else (k, w) :: Memory.write rest addr v

/-- The canonical memory that holds the given cells; of two cells with one address the first counts. -/
def Memory.ofCells (cells : List Host.Cell) : Memory :=
  cells.foldr (fun cell m => Memory.write m cell.1 cell.2) []

end Sys2Proof
end

