-- ==== Sys2Proof/Config.lean ====
section
/-! DEFINITION. What the spec leaves to the machine or to its environment: the open parameters of 00_scope.md R7 and the
free values. The two functions without a body are free: nothing in Lean can evaluate them. -/

namespace Sys2Proof

/-- The parameter `JR_CARRY_MODE` of 00_scope.md R7: what `JR NC` and `JR C` do (46_jumps.md R253, R254). -/
inductive JrCarryMode where
  | fault
  | implemented
deriving DecidableEq, Repr

/-- The cartridge of 20_memory.md R66, the environment's part of the address space. `image` is what `cartRead` answers
at each address of 0x0000 to 0x7FFF, `romOnly` is `getRomType()` as the write gate uses it, and `mapper` stands for
whatever else an external cartridge holds. DESIGN CHOICE, safe: log 4. -/
structure Cart where
  image : Memory
  romOnly : Bool
  mapper : Nat
deriving DecidableEq, Repr, Inhabited

/-- What a write does to a cartridge that is not ROM-only: "an unconstrained function of the environment"
(20_memory.md R68). FREE, safe: log 5. -/
opaque Config.cartWrite : Cart → Nat → Byte → Cart

/-- Whether `cycles` counts the access that raised `AddressError`, which 40_step_cycle.md R139 leaves unspecified
(93_implementation_defined.md U6). FREE, safe: log 6. -/
opaque Config.faultingAccessCounted : Int → AccessDir → BitVec 64 → Bool

end Sys2Proof
end

