-- ==== Sys2Proof/Machine/State.lean ====
section
/-! DEFINITION. The state of the machine: 10_state.md R20, "and nothing else", with the parameter `JR_CARRY_MODE` beside it;
the reasons a step can stop; construction and reset (70_reset_and_hazards.md R340 to R343). -/

namespace Sys2Proof.Machine

/-- F, the flag register (10_state.md R22): four one-bit flags. Its bits 3 to 0 are no state, they "always read as 0". -/
structure Flags where
  z : Bool
  n : Bool
  h : Bool
  c : Bool
deriving DecidableEq, Repr

/-- The fault record of 10_state.md R42: the kind of a fault and the information 60_exceptions.md R300 gives it. -/
inductive FaultRecord where
  /-- `DecodeError(op)`: the opcode byte. -/
  | decodeError (op : Byte)
  /-- `ExecutionError(what)`: the unsupported condition, the only reachable case (60_exceptions.md R302). -/
  | executionError (what : Cond)
  /-- `AddressError(addr, dir)`: the faulting address and access direction. -/
  | addressError (addr : Int) (dir : AccessDir)
deriving DecidableEq, Repr

/-- The architectural state, 10_state.md R20. The pairs are views, not state (R24). -/
structure State where
  a : Byte
  b : Byte
  c : Byte
  d : Byte
  e : Byte
  h : Byte
  l : Byte
  f : Flags
  sp : Word
  pc : Word
  /-- R34: true is the spec's `Halted`, false its `Running`. -/
  halted : Bool
  /-- R35: the unsigned 64-bit cycle counter. -/
  cycles : BitVec 64
  /-- R40: the nine bus buffers, IE among them, each byte under its bus address. -/
  mem : Memory
  /-- R41: the cartridge behind 0x0000 to 0x7FFF. -/
  cart : Cart
  /-- R42: the fault record. -/
  fault : Option FaultRecord
  /-- 00_scope.md R7: the parameter `JR_CARRY_MODE`, carried here because `exec` takes nothing else; never changed. DESIGN
  CHOICE, safe: log 3. -/
  jrCarryMode : JrCarryMode
deriving DecidableEq, Repr

/-- How a step (or a driver's access) fails: 60_exceptions.md R300. Each carries its information and, last, the state
the fault leaves (40_step_cycle.md R139): every effect before the fault, the fault recorded. -/
inductive Fault where
  /-- Raised by the fetch when the opcode has no table entry (R301). The spec's own fault: safe. -/
  | decodeError (op : Byte) (left : State)
  /-- Raised by `JR NC` and `JR C` under `JR_CARRY_MODE = fault` (R302, 46_jumps.md R253, R254). The spec's own fault:
  safe. -/
  | executionError (what : Cond) (left : State)
  /-- Raised by any bus access to 0xFEA0 to 0xFEFF or outside 0x0000 to 0xFFFF (R303). The spec's own fault: safe. -/
  | addressError (addr : Int) (dir : AccessDir) (left : State)
deriving DecidableEq, Repr

/-- Why there is no step. -/
inductive Refusal where
  /-- Raised by `exec` for an instruction that has no meaning yet: safe. No arm raises it. -/
  | notModelled (mnemonic : String)
  /-- Raised by `step` when `halted` is true: no step is enabled (40_step_cycle.md R130). Safe: log 8. -/
  | noStepHalted
  /-- Raised by `step` when a fault is recorded: no step is enabled (40_step_cycle.md R130). Safe: log 8. -/
  | noStepFaulted
deriving DecidableEq, Repr

/-- The outcome of a meaning and of a step. -/
abbrev Out := Host.Outcome State Fault Refusal

/-- Construction of a machine from the three open parameters of 00_scope.md R7, with the values of
70_reset_and_hazards.md R341. -/
def State.construct (mode : JrCarryMode) (busInit : Memory) (cart : Cart) : State where
  a := 0x00
  b := 0x00
  c := 0x00
  d := 0x00
  e := 0x00
  h := 0x00
  l := 0x00
  f := ⟨false, false, false, false⟩
  sp := 0x0000
  pc := 0x0000
  halted := false
  cycles := 0
  mem := busInit
  cart := cart
  fault := none
  jrCarryMode := mode

/-- The cartridge of `State.reset`: ROM-only, with nothing loaded. DESIGN CHOICE, unsafe: log 4. -/
def blankCart : Cart := ⟨[], true, 0⟩

/-- The machine right after reset, which is construction (70_reset_and_hazards.md R340). The parameters are those
00_scope.md R7 recommends. DESIGN CHOICE, unsafe: logs 2, 3, 4. -/
def State.reset : State := State.construct .fault [] blankCart

end Sys2Proof.Machine
end

