-- ==== Sys2Proof/Machine/Ops.lean ====
section
/-! DEFINITION. The named operations over registers and memory: register accessors (`register_file`, 10_state.md), the router
(`address_bus_router`, 20_memory.md R60 to R64), the cartridge port and the arbiter's ticked accesses (`memory_arbiter`),
and raising a fault (60_exceptions.md R305, R306). -/

namespace Sys2Proof.Machine

/-! ### Register file -/

/-- `combine(high, low)` of 10_state.md R24: the first-named register is the high byte. -/
def combine (high low : Byte) : Word := high ++ low

/-- Read of a general 8-bit register (10_state.md R21). -/
def State.r8 (s : State) : R8 → Byte
  | .a => s.a
  | .b => s.b
  | .c => s.c
  | .d => s.d
  | .e => s.e
  | .h => s.h
  | .l => s.l

/-- Write of a general 8-bit register (10_state.md R21). -/
def State.setR8 (s : State) (r : R8) (v : Byte) : State :=
  match r with
  | .a => { s with a := v }
  | .b => { s with b := v }
  | .c => { s with c := v }
  | .d => { s with d := v }
  | .e => { s with e := v }
  | .h => { s with h := v }
  | .l => { s with l := v }

/-- Read of a 16-bit register: a pair's view or SP (10_state.md R24, R26). -/
def State.r16 (s : State) : R16 → Word
  | .bc => combine s.b s.c
  | .de => combine s.d s.e
  | .hl => combine s.h s.l
  | .sp => s.sp

/-- Write of a 16-bit register, both halves of a pair at once (10_state.md R24, R26). -/
def State.setR16 (s : State) (p : R16) (v : Word) : State :=
  match p with
  | .bc => { s with b := highByte v, c := lowByte v }
  | .de => { s with d := highByte v, e := lowByte v }
  | .hl => { s with h := highByte v, l := lowByte v }
  | .sp => { s with sp := v }

/-- Write of the four flags. -/
def State.setFlags (s : State) (f : Flags) : State := { s with f := f }

/-- Write of the program counter; a `Word` is masked to 16 bits by its type (10_state.md R28). -/
def State.setPc (s : State) (v : Word) : State := { s with pc := v }

/-- `Tick(n)` of 00_scope.md R9: the counter wraps modulo 2^64 (10_state.md R35;
log 12). -/
def State.tick (s : State) (n : Nat) : State := { s with cycles := s.cycles + BitVec.ofNat 64 n }

/-- The interrupt-enable byte, the bus byte at 0xFFFF (10_state.md R36). -/
def State.ie (s : State) : Byte := s.mem.read 0xFFFF

/-! ### Router -/

/-- The ten regions of 20_memory.md R60. -/
inductive Region where
  | rom | vram | eram | wram0 | wram1 | echo | oam | io | hram | ie
deriving DecidableEq, Repr

/-- The region table of 20_memory.md R60 in search order: region, first address, last address, both inclusive. -/
def regionTable : List (Region × Nat × Nat) :=
  [(.rom, 0x0000, 0x7FFF), (.vram, 0x8000, 0x9FFF), (.eram, 0xA000, 0xBFFF), (.wram0, 0xC000, 0xCFFF),
   (.wram1, 0xD000, 0xDFFF), (.echo, 0xE000, 0xFDFF), (.oam, 0xFE00, 0xFE9F), (.io, 0xFF00, 0xFF7F),
   (.hram, 0xFF80, 0xFFFE), (.ie, 0xFFFF, 0xFFFF)]

/-- The "linear search (ordered, first-match)" of 20_memory.md R60 over the region table. -/
def regionOf (addr : Nat) : Option Region :=
  (regionTable.find? fun row => row.2.1 ≤ addr && addr ≤ row.2.2).map fun row => row.1

/-- The router's answer for an unbounded integer address: none below 0 and wherever no region holds it
(20_memory.md R64). -/
def route (addr : Int) : Option Region :=
  match addr with
  | .ofNat n => regionOf n
  | .negSucc _ => none

/-- `cartRead` of 20_memory.md R66, R67. -/
def Cart.read (cart : Cart) (addr : Nat) : Byte := cart.image.read addr

/-- A cartridge whose image is in canonical form and lies within 0x0000 to 0x7FFF. -/
def Cart.canonical (cart : Cart) : Cart :=
  { cart with image := Memory.ofCells (cart.image.filter fun cell => cell.1 < 0x8000) }

/-- `cartWrite` with the write gate of 20_memory.md R68: a ROM-only cartridge discards the write; what another
cartridge does is free. -/
def Cart.write (cart : Cart) (addr : Nat) (v : Byte) : Cart :=
  if cart.romOnly then cart else Cart.canonical (Config.cartWrite cart addr v)

/-- `BusRead` of 20_memory.md R62: the byte, or none where the router raises `AddressError`. A bus buffer's byte stands
under its bus address, the region's first address plus the index (log 20). -/
def busRead (s : State) (addr : Int) : Option Byte :=
  match route addr with
  | none => none
  | some .rom => some (Cart.read s.cart addr.toNat)
  | some _ => some (s.mem.read addr.toNat)

/-- `BusWrite` of 20_memory.md R63: the state after it, or none where the router raises `AddressError`. -/
def busWrite (s : State) (addr : Int) (v : Byte) : Option State :=
  match route addr with
  | none => none
  | some .rom => some { s with cart := Cart.write s.cart addr.toNat v }
  | some _ => some { s with mem := s.mem.write addr.toNat v }

/-! ### Faults -/

/-- Recording a fault (10_state.md R42). It replaces a record already there, which only a driver's failing access can meet, since no
step is enabled after a fault (60_exceptions.md R307). DESIGN CHOICE: log 28. -/
def State.record (s : State) (r : FaultRecord) : State := { s with fault := some r }

/-- Raising a fault, the one way this machine takes an exception: "no trap vector, no handler address, no saved-PC
register, no cause register, no mode change and no stack push" (60_exceptions.md R305). Every effect so far stays and
nothing is rolled back (R306). -/
def raise (r : FaultRecord) (s : State) : Fault :=
  match r with
  | .decodeError op => .decodeError op (s.record r)
  | .executionError what => .executionError what (s.record r)
  | .addressError addr dir => .addressError addr dir (s.record r)

/-- The state at an access that raises `AddressError`: whether the access has been counted is free
(40_step_cycle.md R139, 93_implementation_defined.md U6). -/
def State.atFailingAccess (s : State) (addr : Int) (dir : AccessDir) : State :=
  s.tick (if Config.faultingAccessCounted addr dir s.cycles then 1 else 0)

/-! ### Arbiter: the CPU-side accesses -/

/-- `MemRead(addr, 1)` of 00_scope.md R9: one cycle, then the routed read. -/
def memRead (s : State) (addr : Int) : Except Fault (Byte × State) :=
  match busRead s addr with
  | some v => .ok (v, s.tick 1)
  | none => .error (raise (.addressError addr .read) (s.atFailingAccess addr .read))

/-- `MemWrite(addr, 1, v)` of 00_scope.md R9: one cycle, then the routed write. -/
def memWrite (s : State) (addr : Int) (v : Byte) : Except Fault State :=
  match busWrite (s.tick 1) addr v with
  | some t => .ok t
  | none => .error (raise (.addressError addr .write) (s.atFailingAccess addr .write))

end Sys2Proof.Machine
end

