-- ==== Sys2Proof/Machine/Flags.lean ====
section
/-! DEFINITION. The flag register as a byte and every flag computation of the spec (10_state.md R22, R29, R30), with the values
computed beside the flags (`alu`). Sums are exact naturals, narrowed at the end (00_scope.md R8). -/

namespace Sys2Proof.Machine

/-- A flag as a number: 1 for true, 0 for false (00_scope.md R8). -/
def flagBit (b : Bool) : Byte := if b then 1 else 0

/-- Read of F: `(Z << 7) | (N << 6) | (H << 5) | (C << 4)` (10_state.md R22). The places of the bits are PRESUMED by the
spec from the SM83 (92_eei_decisions.md D4): log 9. -/
def Flags.toByte (f : Flags) : Byte :=
  flagBit f.z <<< 7 ||| flagBit f.n <<< 6 ||| flagBit f.h <<< 5 ||| flagBit f.c <<< 4

/-- Write of F: bits 7 to 4 are the flags, bits 3 to 0 are discarded (10_state.md R22). -/
def Flags.ofByte (v : Byte) : Flags := ⟨v.getLsbD 7, v.getLsbD 6, v.getLsbD 5, v.getLsbD 4⟩

/-- One flag (10_state.md R31). -/
def Flags.get (f : Flags) : Flag → Bool
  | .z => f.z
  | .n => f.n
  | .h => f.h
  | .c => f.c

/-- One flag written, the other three unchanged (10_state.md R31). -/
def Flags.set (f : Flags) (which : Flag) (v : Bool) : Flags :=
  match which with
  | .z => { f with z := v }
  | .n => { f with n := v }
  | .h => { f with h := v }
  | .c => { f with c := v }

/-! ### Addition (42_add.md R200 to R203; half-carry and Z: logs 14, 16) -/

/-- The exact sum of two bytes, 0 to 510. -/
def sum8 (x y : Byte) : Nat := x.toNat + y.toNat

/-- The exact sum of two 16-bit values, 0 to 131070. -/
def sum16 (x y : Word) : Nat := x.toNat + y.toNat

/-- The sum of the parts below the nibble boundary (R200, R202). -/
def half8 (x y : Byte) : Nat := (x &&& 0x0F).toNat + (y &&& 0x0F).toNat

/-- The sum of the parts below the byte boundary (R201, R202). -/
def half16 (x y : Word) : Nat := (x &&& 0x00FF).toNat + (y &&& 0x00FF).toNat

/-- Flags of `ADD A,r` (R200): N cleared, H the bit of mask 0x10, C out of range; Z not written. -/
def add8Flags (f : Flags) (x y : Byte) : Flags :=
  { f with n := false, h := (half8 x y).testBit 4, c := sum8 x y > 0xFF }

/-- Flags of `ADD HL,rr` (R201): N cleared, H the bit of mask 0x0100, C out of range; Z not written. -/
def add16Flags (f : Flags) (x y : Word) : Flags :=
  { f with n := false, h := (half16 x y).testBit 8, c := sum16 x y > 0xFFFF }

/-! ### Increment and decrement (43_incdec.md R210, R211; half-carry: log 14) -/

/-- Flags of an 8-bit increment of `v` to `res` (R210): C not written. -/
def inc8Flags (f : Flags) (v res : Byte) : Flags :=
  { f with z := res == 0, n := false, h := v &&& 0x0F == 0x0F }

/-- Flags of an 8-bit decrement of `v` to `res` (R211): C not written. -/
def dec8Flags (f : Flags) (v res : Byte) : Flags :=
  { f with z := res == 0, n := true, h := v &&& 0x0F == 0x00 }

/-! ### Decimal adjust (44_acc_flag_ops.md R230; the order of the tests: log 15) -/

/-- The correction of 0x06: after a subtract when H is set; after an add when H is set or the low nibble of A is above 9. -/
def daaLow (f : Flags) (x : Byte) : Bool := f.h || (!f.n && (x &&& 0x0F).toNat > 0x09)

/-- The correction of 0x60: after a subtract when C is set; after an add when C is set or A is above 0x99. -/
def daaHigh (f : Flags) (x : Byte) : Bool := f.c || (!f.n && x.toNat > 0x99)

/-- The summed correction `adj` of R230. -/
def daaAdjust (f : Flags) (x : Byte) : Byte :=
  (if daaLow f x then 0x06 else 0x00) + (if daaHigh f x then 0x60 else 0x00)

/-- The adjusted accumulator `res` of R230. -/
def daaResult (f : Flags) (x : Byte) : Byte :=
  if f.n then x - daaAdjust f x else x + daaAdjust f x

/-- Flags of `DAA` (R230): Z from the result, H cleared, C set when the add branch applies 0x60 and otherwise unchanged;
N not written. -/
def daaFlags (f : Flags) (x : Byte) : Flags :=
  { f with z := daaResult f x == 0, h := false, c := if f.n then f.c else daaHigh f x }

/-! ### Complement and set-carry (44_acc_flag_ops.md R231, R232; log 16) -/

/-- Flags of `CPL` (R231): N and H cleared, Z and C not written. -/
def cplFlags (f : Flags) : Flags := { f with n := false, h := false }

/-- Flags of `SCF` (R232): C set, nothing else written. -/
def scfFlags (f : Flags) : Flags := { f with c := true }

/-! ### Rotates (45_rotates.md R240 to R243) -/

/-- One place to the left, `enters` into bit 0. -/
def shiftLeftWith (x : Byte) (enters : Bool) : Byte := x <<< 1 ||| flagBit enters

/-- One place to the right, `enters` into bit 7. -/
def shiftRightWith (x : Byte) (enters : Bool) : Byte := x >>> 1 ||| flagBit enters <<< 7

/-- Flags of all four rotates: Z, N, H cleared, C the bit shifted out. -/
def rotateFlags (out : Bool) : Flags := ⟨false, false, false, out⟩

/-! ### Conditions (46_jumps.md R255) -/

/-- Condition evaluation: whether it holds, or the condition that is not supported. -/
def evalCond (mode : JrCarryMode) (f : Flags) : Option Cond → Except Cond Bool
  | none => .ok true
  | some .nz => .ok (!f.z)
  | some .z => .ok f.z
  | some .nc =>
    match mode with
    | .fault => .error .nc
    | .implemented => .ok (!f.c)
  | some .c =>
    match mode with
    | .fault => .error .c
    | .implemented => .ok f.c

end Sys2Proof.Machine
end

