-- ==== Sys2Proof/Machine/Operands.lean ====
section
/-! DEFINITION. Operand forms (`load_store_unit`): effective addresses (41_loads.md R164), sign extension (00_scope.md R9), the
register cell's helpers (10_state.md R27) and the jump target (46_jumps.md R256). -/

namespace Sys2Proof.Machine

/-- Register-pair indirect: "16 bits, no offset" (41_loads.md R164). -/
def State.ea (s : State) (p : R16) : Int := (s.r16 p).toNat

/-- Absolute, low byte of the 16-bit store: `a16` (41_loads.md R162). -/
def eaLow (a16 : Word) : Int := a16.toNat

/-- Absolute, high byte of the 16-bit store: `a16 + 1`, "not reduced modulo 2^16" (41_loads.md R162; log 10). -/
def eaHigh (a16 : Word) : Int := ((a16.toNat + 1 : Nat) : Int)

/-- `sext_16` of 00_scope.md R9. -/
def sext16 (v : Byte) : Word := if v.toNat < 0x80 then v.setWidth 16 else v.setWidth 16 + 0xFF00

/-- `zext_16` of 00_scope.md R9. -/
def zext16 (v : Byte) : Word := v.setWidth 16

/-- `raw()` of 10_state.md R27: the stored byte read as two's complement, -128 to 127. -/
def rawSigned (v : Byte) : Int := v.toInt

/-- `incrementValue` of 10_state.md R27: wraps at the 8-bit boundary, no flag side effects. -/
def incrementValue (v : Byte) : Byte := v + 1

/-- `decrementValue` of 10_state.md R27. -/
def decrementValue (v : Byte) : Byte := v - 1

/-- PC-relative target (46_jumps.md R250, R256); `pc` already points past the instruction. -/
def jumpTarget (pc : Word) (e8 : Byte) : Word := pc + sext16 e8

end Sys2Proof.Machine
end

