-- ==== Sys2Proof/Machine/AccFlag.lean ====
section
/-! DEFINITION. Accumulator and flag operations (`alu`), 44_acc_flag_ops.md R230 to R233. -/

namespace Sys2Proof.Machine

/-- `DAA`, R230. -/
def execDaa (s : State) : Out :=
  .next ((s.setR8 .a (daaResult s.f s.a)).setFlags (daaFlags s.f s.a))

/-- `CPL`, R231. -/
def execCpl (s : State) : Out := .next ((s.setR8 .a (~~~s.a)).setFlags (cplFlags s.f))

/-- `SCF`, R232. -/
def execScf (s : State) : Out := .next (s.setFlags (scfFlags s.f))

end Sys2Proof.Machine
end

