-- ==== Sys2Proof/Machine/Add.lean ====
section
/-! DEFINITION. Addition (`alu`), 42_add.md R200 to R203. -/

namespace Sys2Proof.Machine

/-- R200: A receives the sum modulo 2^8. That A is the destination and that Z is not written: log 16. -/
def addToA (src : R8) (s : State) : Out :=
  .next ((s.setR8 .a (BitVec.ofNat 8 (sum8 s.a (s.r8 src)))).setFlags (add8Flags s.f s.a (s.r8 src)))

/-- `ADD A,B`, R200. -/
def execAddA_B (s : State) : Out := addToA .b s

/-- `ADD A,C`, R200. -/
def execAddA_C (s : State) : Out := addToA .c s

/-- `ADD A,D`, R200. -/
def execAddA_D (s : State) : Out := addToA .d s

/-- `ADD A,E`, R200. -/
def execAddA_E (s : State) : Out := addToA .e s

/-- `ADD A,H`, R200. -/
def execAddA_H (s : State) : Out := addToA .h s

/-- `ADD A,L`, R200. -/
def execAddA_L (s : State) : Out := addToA .l s

/-- `ADD A,A`, R200. -/
def execAddA_A (s : State) : Out := addToA .a s

/-- R201: HL receives the sum modulo 2^16; the 16-bit write costs a cycle. -/
def addToHL (src : R16) (s : State) : Out :=
  .next (((s.setR16 .hl (BitVec.ofNat 16 (sum16 (s.r16 .hl) (s.r16 src)))).tick 1).setFlags
    (add16Flags s.f (s.r16 .hl) (s.r16 src)))

/-- `ADD HL,BC`, R201. -/
def execAddHL_BC (s : State) : Out := addToHL .bc s

/-- `ADD HL,DE`, R201. -/
def execAddHL_DE (s : State) : Out := addToHL .de s

/-- `ADD HL,HL`, R201. -/
def execAddHL_HL (s : State) : Out := addToHL .hl s

/-- `ADD HL,SP`, R201. -/
def execAddHL_SP (s : State) : Out := addToHL .sp s

end Sys2Proof.Machine
end

