-- ==== Sys2Proof/Machine/Control.lean ====
section
/-! DEFINITION. NOP and STOP, 47_control.md R270 to R273. -/

namespace Sys2Proof.Machine

/-- Setting `halted`; nothing clears it (10_state.md R34). -/
def State.halt (s : State) : State := { s with halted := true }

/-- `NOP`, R270. -/
def execNop (s : State) : Out := .next s

/-- `STOP`, R271. One byte, so nothing else is fetched: log 24. -/
def execStop (s : State) : Out := .next s.halt

end Sys2Proof.Machine
end

