-- ==== Sys2Proof/Machine/IncDec.lean ====
section
/-! DEFINITION. Increment and decrement (`alu`), 43_incdec.md R210 to R216. -/

namespace Sys2Proof.Machine

/-- R210. -/
def incReg (r : R8) (s : State) : Out :=
  .next ((s.setR8 r (incrementValue (s.r8 r))).setFlags (inc8Flags s.f (s.r8 r) (incrementValue (s.r8 r))))

/-- `INC B`, R210. -/
def execIncB (s : State) : Out := incReg .b s

/-- `INC C`, R210. -/
def execIncC (s : State) : Out := incReg .c s

/-- `INC D`, R210. -/
def execIncD (s : State) : Out := incReg .d s

/-- `INC E`, R210. -/
def execIncE (s : State) : Out := incReg .e s

/-- `INC H`, R210. -/
def execIncH (s : State) : Out := incReg .h s

/-- `INC L`, R210. -/
def execIncL (s : State) : Out := incReg .l s

/-- `INC A`, R210. -/
def execIncA (s : State) : Out := incReg .a s

/-- R211. -/
def decReg (r : R8) (s : State) : Out :=
  .next ((s.setR8 r (decrementValue (s.r8 r))).setFlags (dec8Flags s.f (s.r8 r) (decrementValue (s.r8 r))))

/-- `DEC B`, R211. -/
def execDecB (s : State) : Out := decReg .b s

/-- `DEC C`, R211. -/
def execDecC (s : State) : Out := decReg .c s

/-- `DEC D`, R211. -/
def execDecD (s : State) : Out := decReg .d s

/-- `DEC E`, R211. -/
def execDecE (s : State) : Out := decReg .e s

/-- `DEC H`, R211. -/
def execDecH (s : State) : Out := decReg .h s

/-- `DEC L`, R211. -/
def execDecL (s : State) : Out := decReg .l s

/-- `DEC A`, R211. -/
def execDecA (s : State) : Out := decReg .a s

/-- R212: modulo 2^16, no flags; the 16-bit write costs a cycle. -/
def incPair (p : R16) (s : State) : Out := .next ((s.setR16 p (s.r16 p + 1)).tick 1)

/-- `INC BC`, R212. -/
def execIncBC (s : State) : Out := incPair .bc s

/-- `INC DE`, R212. -/
def execIncDE (s : State) : Out := incPair .de s

/-- `INC HL`, R212. -/
def execIncHL (s : State) : Out := incPair .hl s

/-- `INC SP`, R212. -/
def execIncSP (s : State) : Out := incPair .sp s

/-- R213: modulo 2^16, no flags; the 16-bit write costs a cycle. -/
def decPair (p : R16) (s : State) : Out := .next ((s.setR16 p (s.r16 p - 1)).tick 1)

/-- `DEC BC`, R213. -/
def execDecBC (s : State) : Out := decPair .bc s

/-- `DEC DE`, R213. -/
def execDecDE (s : State) : Out := decPair .de s

/-- `DEC HL`, R213. -/
def execDecHL (s : State) : Out := decPair .hl s

/-- `DEC SP`, R213. -/
def execDecSP (s : State) : Out := decPair .sp s

/-- R214, R215: read, compute, write back to the same address, then the flags. -/
def modifyAtHL (op : Byte → Byte) (flags : Flags → Byte → Byte → Flags) (s : State) : Out :=
  match memRead s (s.ea .hl) with
  | .ok (v, s1) =>
    match memWrite s1 (s.ea .hl) (op v) with
    | .ok s2 => .next (s2.setFlags (flags s2.f v (op v)))
    | .error f => .fault f
  | .error f => .fault f

/-- `INC (HL)`, R214. -/
def execIncAtHL (s : State) : Out := modifyAtHL incrementValue inc8Flags s

/-- `DEC (HL)`, R215. -/
def execDecAtHL (s : State) : Out := modifyAtHL decrementValue dec8Flags s

end Sys2Proof.Machine
end

