-- ==== Sys2Proof/Machine/Jumps.lean ====
section
/-! DEFINITION. Relative jumps, 46_jumps.md R250 to R256. The offset byte is already fetched, taken or not. -/

namespace Sys2Proof.Machine

/-- R250 to R255: an unsupported condition raises `ExecutionError` before any flag is tested (60_exceptions.md R302);
where the condition holds, `pc` receives the target and the write costs a cycle. -/
def jumpRelative (cond : Option Cond) (e8 : Byte) (s : State) : Out :=
  match evalCond s.jrCarryMode s.f cond with
  | .error what => .fault (raise (.executionError what) s)
  | .ok true => .next ((s.setPc (jumpTarget s.pc e8)).tick 1)
  | .ok false => .next s

/-- `JR e8`, R250. -/
def execJr (e8 : Byte) (s : State) : Out := jumpRelative none e8 s

/-- `JR NZ,e8`, R251. -/
def execJrNZ (e8 : Byte) (s : State) : Out := jumpRelative (some .nz) e8 s

/-- `JR Z,e8`, R252. -/
def execJrZ (e8 : Byte) (s : State) : Out := jumpRelative (some .z) e8 s

/-- `JR NC,e8`, R253. -/
def execJrNC (e8 : Byte) (s : State) : Out := jumpRelative (some .nc) e8 s

/-- `JR C,e8`, R254. -/
def execJrC (e8 : Byte) (s : State) : Out := jumpRelative (some .c) e8 s

end Sys2Proof.Machine
end

