-- ==== Sys2Proof/Machine/Loads.lean ====
section
/-! DEFINITION. Load instructions (`load_store_unit`), 41_loads.md R150 to R162. No load writes a flag (R163). The opcode and
the immediates are already fetched, `pc` points past the instruction. -/

namespace Sys2Proof.Machine

/-! ### Immediate to register -/

/-- R150: `x[r] <- d8`. -/
def loadImm8 (r : R8) (d8 : Byte) (s : State) : Out := .next (s.setR8 r d8)

/-- `LD B,d8`, R150. -/
def execLdB_d8 (d8 : Byte) (s : State) : Out := loadImm8 .b d8 s

/-- `LD C,d8`, R150. -/
def execLdC_d8 (d8 : Byte) (s : State) : Out := loadImm8 .c d8 s

/-- `LD D,d8`, R150. -/
def execLdD_d8 (d8 : Byte) (s : State) : Out := loadImm8 .d d8 s

/-- `LD E,d8`, R150. -/
def execLdE_d8 (d8 : Byte) (s : State) : Out := loadImm8 .e d8 s

/-- `LD H,d8`, R150. -/
def execLdH_d8 (d8 : Byte) (s : State) : Out := loadImm8 .h d8 s

/-- `LD L,d8`, R150. -/
def execLdL_d8 (d8 : Byte) (s : State) : Out := loadImm8 .l d8 s

/-- `LD A,d8`, R150. -/
def execLdA_d8 (d8 : Byte) (s : State) : Out := loadImm8 .a d8 s

/-- R151: `x[rr] <- d16`; this 16-bit write costs no cycle (40_step_cycle.md R136 (d)). -/
def loadImm16 (p : R16) (d16 : Word) (s : State) : Out := .next (s.setR16 p d16)

/-- `LD BC,d16`, R151. -/
def execLdBC_d16 (d16 : Word) (s : State) : Out := loadImm16 .bc d16 s

/-- `LD DE,d16`, R151. -/
def execLdDE_d16 (d16 : Word) (s : State) : Out := loadImm16 .de d16 s

/-- `LD HL,d16`, R151. -/
def execLdHL_d16 (d16 : Word) (s : State) : Out := loadImm16 .hl d16 s

/-- `LD SP,d16`, R151. -/
def execLdSP_d16 (d16 : Word) (s : State) : Out := loadImm16 .sp d16 s

/-! ### Register to register -/

/-- R152: `x[r] <- x[r']`. -/
def loadReg (dst src : R8) (s : State) : Out := .next (s.setR8 dst (s.r8 src))

/-- `LD B,B`, R152. -/
def execLdB_B (s : State) : Out := loadReg .b .b s

/-- `LD B,C`, R152. -/
def execLdB_C (s : State) : Out := loadReg .b .c s

/-- `LD B,D`, R152. -/
def execLdB_D (s : State) : Out := loadReg .b .d s

/-- `LD B,E`, R152. -/
def execLdB_E (s : State) : Out := loadReg .b .e s

/-- `LD B,H`, R152. -/
def execLdB_H (s : State) : Out := loadReg .b .h s

/-- `LD B,L`, R152. -/
def execLdB_L (s : State) : Out := loadReg .b .l s

/-- `LD B,A`, R152. -/
def execLdB_A (s : State) : Out := loadReg .b .a s

/-- `LD C,B`, R152. -/
def execLdC_B (s : State) : Out := loadReg .c .b s

/-- `LD C,C`, R152. -/
def execLdC_C (s : State) : Out := loadReg .c .c s

/-- `LD C,D`, R152. -/
def execLdC_D (s : State) : Out := loadReg .c .d s

/-- `LD C,E`, R152. -/
def execLdC_E (s : State) : Out := loadReg .c .e s

/-- `LD C,H`, R152. -/
def execLdC_H (s : State) : Out := loadReg .c .h s

/-- `LD C,L`, R152. -/
def execLdC_L (s : State) : Out := loadReg .c .l s

/-- `LD C,A`, R152. -/
def execLdC_A (s : State) : Out := loadReg .c .a s

/-- `LD D,B`, R152. -/
def execLdD_B (s : State) : Out := loadReg .d .b s

/-- `LD D,C`, R152. -/
def execLdD_C (s : State) : Out := loadReg .d .c s

/-- `LD D,D`, R152. -/
def execLdD_D (s : State) : Out := loadReg .d .d s

/-- `LD D,E`, R152. -/
def execLdD_E (s : State) : Out := loadReg .d .e s

/-- `LD D,H`, R152. -/
def execLdD_H (s : State) : Out := loadReg .d .h s

/-- `LD D,L`, R152. -/
def execLdD_L (s : State) : Out := loadReg .d .l s

/-- `LD D,A`, R152. -/
def execLdD_A (s : State) : Out := loadReg .d .a s

/-- `LD E,B`, R152. -/
def execLdE_B (s : State) : Out := loadReg .e .b s

/-- `LD E,C`, R152. -/
def execLdE_C (s : State) : Out := loadReg .e .c s

/-- `LD E,D`, R152. -/
def execLdE_D (s : State) : Out := loadReg .e .d s

/-- `LD E,E`, R152. -/
def execLdE_E (s : State) : Out := loadReg .e .e s

/-- `LD E,H`, R152. -/
def execLdE_H (s : State) : Out := loadReg .e .h s

/-- `LD E,L`, R152. -/
def execLdE_L (s : State) : Out := loadReg .e .l s

/-- `LD E,A`, R152. -/
def execLdE_A (s : State) : Out := loadReg .e .a s

/-- `LD H,B`, R152. -/
def execLdH_B (s : State) : Out := loadReg .h .b s

/-- `LD H,C`, R152. -/
def execLdH_C (s : State) : Out := loadReg .h .c s

/-- `LD H,D`, R152. -/
def execLdH_D (s : State) : Out := loadReg .h .d s

/-- `LD H,E`, R152. -/
def execLdH_E (s : State) : Out := loadReg .h .e s

/-- `LD H,H`, R152. -/
def execLdH_H (s : State) : Out := loadReg .h .h s

/-- `LD H,L`, R152. -/
def execLdH_L (s : State) : Out := loadReg .h .l s

/-- `LD H,A`, R152. -/
def execLdH_A (s : State) : Out := loadReg .h .a s

/-- `LD L,B`, R152. -/
def execLdL_B (s : State) : Out := loadReg .l .b s

/-- `LD L,C`, R152. -/
def execLdL_C (s : State) : Out := loadReg .l .c s

/-- `LD L,D`, R152. -/
def execLdL_D (s : State) : Out := loadReg .l .d s

/-- `LD L,E`, R152. -/
def execLdL_E (s : State) : Out := loadReg .l .e s

/-- `LD L,H`, R152. -/
def execLdL_H (s : State) : Out := loadReg .l .h s

/-- `LD L,L`, R152. -/
def execLdL_L (s : State) : Out := loadReg .l .l s

/-- `LD L,A`, R152. -/
def execLdL_A (s : State) : Out := loadReg .l .a s

/-- `LD A,B`, R152. -/
def execLdA_B (s : State) : Out := loadReg .a .b s

/-- `LD A,C`, R152. -/
def execLdA_C (s : State) : Out := loadReg .a .c s

/-- `LD A,D`, R152. -/
def execLdA_D (s : State) : Out := loadReg .a .d s

/-- `LD A,E`, R152. -/
def execLdA_E (s : State) : Out := loadReg .a .e s

/-- `LD A,H`, R152. -/
def execLdA_H (s : State) : Out := loadReg .a .h s

/-- `LD A,L`, R152. -/
def execLdA_L (s : State) : Out := loadReg .a .l s

/-- `LD A,A`, R152. -/
def execLdA_A (s : State) : Out := loadReg .a .a s

/-- Pair to pair (R153): the 16-bit write costs a cycle (40_step_cycle.md R136 (b)). -/
def loadPair (dst src : R16) (s : State) : Out := .next ((s.setR16 dst (s.r16 src)).tick 1)

/-- `LD SP,HL`, R153. -/
def execLdSP_HL (s : State) : Out := loadPair .sp .hl s

/-! ### Memory to register -/

/-- R154 to R156: `x[r] <- MemRead(x[rr], 1)`, the address formed before the register is written. -/
def loadFromPair (dst : R8) (p : R16) (s : State) : Out :=
  match memRead s (s.ea p) with
  | .ok (v, s1) => .next (s1.setR8 dst v)
  | .error f => .fault f

/-- `LD A,(BC)`, R154. -/
def execLdA_AtBC (s : State) : Out := loadFromPair .a .bc s

/-- `LD A,(DE)`, R155. -/
def execLdA_AtDE (s : State) : Out := loadFromPair .a .de s

/-- `LD B,(HL)`, R156. -/
def execLdB_AtHL (s : State) : Out := loadFromPair .b .hl s

/-- `LD C,(HL)`, R156. -/
def execLdC_AtHL (s : State) : Out := loadFromPair .c .hl s

/-- `LD D,(HL)`, R156. -/
def execLdD_AtHL (s : State) : Out := loadFromPair .d .hl s

/-- `LD E,(HL)`, R156. -/
def execLdE_AtHL (s : State) : Out := loadFromPair .e .hl s

/-- `LD H,(HL)`, R156. -/
def execLdH_AtHL (s : State) : Out := loadFromPair .h .hl s

/-- `LD L,(HL)`, R156. -/
def execLdL_AtHL (s : State) : Out := loadFromPair .l .hl s

/-- `LD A,(HL)`, R156. -/
def execLdA_AtHL (s : State) : Out := loadFromPair .a .hl s

/-! ### Register to memory -/

/-- R157 to R159: `MemWrite(x[rr], 1, x[r])`. -/
def storeToPair (p : R16) (src : R8) (s : State) : Out :=
  match memWrite s (s.ea p) (s.r8 src) with
  | .ok s1 => .next s1
  | .error f => .fault f

/-- `LD (BC),A`, R157. -/
def execLdAtBC_A (s : State) : Out := storeToPair .bc .a s

/-- `LD (DE),A`, R158. -/
def execLdAtDE_A (s : State) : Out := storeToPair .de .a s

/-- `LD (HL),B`, R159. -/
def execLdAtHL_B (s : State) : Out := storeToPair .hl .b s

/-- `LD (HL),C`, R159. -/
def execLdAtHL_C (s : State) : Out := storeToPair .hl .c s

/-- `LD (HL),D`, R159. -/
def execLdAtHL_D (s : State) : Out := storeToPair .hl .d s

/-- `LD (HL),E`, R159. -/
def execLdAtHL_E (s : State) : Out := storeToPair .hl .e s

/-- `LD (HL),H`, R159. -/
def execLdAtHL_H (s : State) : Out := storeToPair .hl .h s

/-- `LD (HL),L`, R159. -/
def execLdAtHL_L (s : State) : Out := storeToPair .hl .l s

/-- `LD (HL),A`, R159. -/
def execLdAtHL_A (s : State) : Out := storeToPair .hl .a s

/-! ### Memory at HL with post-increment and post-decrement -/

/-- R160, R161: the load, then the 16-bit change of HL by `delta`, which costs a cycle. -/
def loadThenStepHL (delta : Word) (s : State) : Out :=
  match memRead s (s.ea .hl) with
  | .ok (v, s1) =>
    let s2 := s1.setR8 .a v
    .next ((s2.setR16 .hl (s2.r16 .hl + delta)).tick 1)
  | .error f => .fault f

/-- `LD A,(HL+)`, R160. -/
def execLdA_AtHLInc (s : State) : Out := loadThenStepHL (1) s

/-- `LD A,(HL-)`, R161. -/
def execLdA_AtHLDec (s : State) : Out := loadThenStepHL (-1) s

/-! ### SP to memory at an immediate address -/

/-- R162: the low byte at `a16`, then the high byte at `a16 + 1`; if the second write fails the first stays. -/
def storeWord (v a16 : Word) (s : State) : Out :=
  match memWrite s (eaLow a16) (lowByte v) with
  | .ok s1 =>
    match memWrite s1 (eaHigh a16) (highByte v) with
    | .ok s2 => .next s2
    | .error f => .fault f
  | .error f => .fault f

/-- `LD (a16),SP`, R162. -/
def execLdAtA16_SP (a16 : Word) (s : State) : Out := storeWord s.sp a16 s

end Sys2Proof.Machine
end

