-- ==== Sys2Proof/Machine/Rotates.lean ====
section
/-! DEFINITION. Accumulator rotates (`alu`), 45_rotates.md R240 to R244. Which mnemonic is which rotate: log 17. -/

namespace Sys2Proof.Machine

/-- A rotate (R240 to R243): A receives `res`, C the bit `out` shifted out. -/
def rotateA (res : Byte) (out : Bool) (s : State) : Out := .next ((s.setR8 .a res).setFlags (rotateFlags out))

/-- `RLCA`, R240. -/
def execRlca (s : State) : Out := rotateA (shiftLeftWith s.a (s.a.getLsbD 7)) (s.a.getLsbD 7) s

/-- `RRCA`, R241. -/
def execRrca (s : State) : Out := rotateA (shiftRightWith s.a (s.a.getLsbD 0)) (s.a.getLsbD 0) s

/-- `RLA`, R242. -/
def execRla (s : State) : Out := rotateA (shiftLeftWith s.a s.f.c) (s.a.getLsbD 7) s

/-- `RRA`, R243. -/
def execRra (s : State) : Out := rotateA (shiftRightWith s.a s.f.c) (s.a.getLsbD 0) s

end Sys2Proof.Machine
end

