-- ==== Sys2Proof/Machine/Dispatch.lean ====
section
/-! DEFINITION. The operation body of each instruction (40_step_cycle.md R134): one arm per row of 30_encoding.md R105. -/

namespace Sys2Proof.Machine

def exec (i : Instr) (s : State) : Host.Outcome State Fault Refusal :=
  match i with
  | .nop => Sys2Proof.Machine.execNop s
  | .ldBC_d16 d16 => Sys2Proof.Machine.execLdBC_d16 d16 s
  | .ldAtBC_A => Sys2Proof.Machine.execLdAtBC_A s
  | .incBC => Sys2Proof.Machine.execIncBC s
  | .incB => Sys2Proof.Machine.execIncB s
  | .decB => Sys2Proof.Machine.execDecB s
  | .ldB_d8 d8 => Sys2Proof.Machine.execLdB_d8 d8 s
  | .rlca => Sys2Proof.Machine.execRlca s
  | .ldAtA16_SP a16 => Sys2Proof.Machine.execLdAtA16_SP a16 s
  | .addHL_BC => Sys2Proof.Machine.execAddHL_BC s
  | .ldA_AtBC => Sys2Proof.Machine.execLdA_AtBC s
  | .decBC => Sys2Proof.Machine.execDecBC s
  | .incC => Sys2Proof.Machine.execIncC s
  | .decC => Sys2Proof.Machine.execDecC s
  | .ldC_d8 d8 => Sys2Proof.Machine.execLdC_d8 d8 s
  | .rrca => Sys2Proof.Machine.execRrca s
  | .stop => Sys2Proof.Machine.execStop s
  | .ldDE_d16 d16 => Sys2Proof.Machine.execLdDE_d16 d16 s
  | .ldAtDE_A => Sys2Proof.Machine.execLdAtDE_A s
  | .incDE => Sys2Proof.Machine.execIncDE s
  | .incD => Sys2Proof.Machine.execIncD s
  | .decD => Sys2Proof.Machine.execDecD s
  | .ldD_d8 d8 => Sys2Proof.Machine.execLdD_d8 d8 s
  | .rla => Sys2Proof.Machine.execRla s
  | .jr e8 => Sys2Proof.Machine.execJr e8 s
  | .addHL_DE => Sys2Proof.Machine.execAddHL_DE s
  | .ldA_AtDE => Sys2Proof.Machine.execLdA_AtDE s
  | .decDE => Sys2Proof.Machine.execDecDE s
  | .incE => Sys2Proof.Machine.execIncE s
  | .decE => Sys2Proof.Machine.execDecE s
  | .ldE_d8 d8 => Sys2Proof.Machine.execLdE_d8 d8 s
  | .rra => Sys2Proof.Machine.execRra s
  | .jrNZ e8 => Sys2Proof.Machine.execJrNZ e8 s
  | .ldHL_d16 d16 => Sys2Proof.Machine.execLdHL_d16 d16 s
  | .incHL => Sys2Proof.Machine.execIncHL s
  | .incH => Sys2Proof.Machine.execIncH s
  | .decH => Sys2Proof.Machine.execDecH s
  | .ldH_d8 d8 => Sys2Proof.Machine.execLdH_d8 d8 s
  | .daa => Sys2Proof.Machine.execDaa s
  | .jrZ e8 => Sys2Proof.Machine.execJrZ e8 s
  | .addHL_HL => Sys2Proof.Machine.execAddHL_HL s
  | .ldA_AtHLInc => Sys2Proof.Machine.execLdA_AtHLInc s
  | .decHL => Sys2Proof.Machine.execDecHL s
  | .incL => Sys2Proof.Machine.execIncL s
  | .decL => Sys2Proof.Machine.execDecL s
  | .ldL_d8 d8 => Sys2Proof.Machine.execLdL_d8 d8 s
  | .cpl => Sys2Proof.Machine.execCpl s
  | .jrNC e8 => Sys2Proof.Machine.execJrNC e8 s
  | .ldSP_d16 d16 => Sys2Proof.Machine.execLdSP_d16 d16 s
  | .incSP => Sys2Proof.Machine.execIncSP s
  | .incAtHL => Sys2Proof.Machine.execIncAtHL s
  | .decAtHL => Sys2Proof.Machine.execDecAtHL s
  | .scf => Sys2Proof.Machine.execScf s
  | .jrC e8 => Sys2Proof.Machine.execJrC e8 s
  | .addHL_SP => Sys2Proof.Machine.execAddHL_SP s
  | .ldA_AtHLDec => Sys2Proof.Machine.execLdA_AtHLDec s
  | .decSP => Sys2Proof.Machine.execDecSP s
  | .incA => Sys2Proof.Machine.execIncA s
  | .decA => Sys2Proof.Machine.execDecA s
  | .ldA_d8 d8 => Sys2Proof.Machine.execLdA_d8 d8 s
  | .ldB_B => Sys2Proof.Machine.execLdB_B s
  | .ldB_C => Sys2Proof.Machine.execLdB_C s
  | .ldB_D => Sys2Proof.Machine.execLdB_D s
  | .ldB_E => Sys2Proof.Machine.execLdB_E s
  | .ldB_H => Sys2Proof.Machine.execLdB_H s
  | .ldB_L => Sys2Proof.Machine.execLdB_L s
  | .ldB_AtHL => Sys2Proof.Machine.execLdB_AtHL s
  | .ldB_A => Sys2Proof.Machine.execLdB_A s
  | .ldC_B => Sys2Proof.Machine.execLdC_B s
  | .ldC_C => Sys2Proof.Machine.execLdC_C s
  | .ldC_D => Sys2Proof.Machine.execLdC_D s
  | .ldC_E => Sys2Proof.Machine.execLdC_E s
  | .ldC_H => Sys2Proof.Machine.execLdC_H s
  | .ldC_L => Sys2Proof.Machine.execLdC_L s
  | .ldC_AtHL => Sys2Proof.Machine.execLdC_AtHL s
  | .ldC_A => Sys2Proof.Machine.execLdC_A s
  | .ldD_B => Sys2Proof.Machine.execLdD_B s
  | .ldD_C => Sys2Proof.Machine.execLdD_C s
  | .ldD_D => Sys2Proof.Machine.execLdD_D s
  | .ldD_E => Sys2Proof.Machine.execLdD_E s
  | .ldD_H => Sys2Proof.Machine.execLdD_H s
  | .ldD_L => Sys2Proof.Machine.execLdD_L s
  | .ldD_AtHL => Sys2Proof.Machine.execLdD_AtHL s
  | .ldD_A => Sys2Proof.Machine.execLdD_A s
  | .ldE_B => Sys2Proof.Machine.execLdE_B s
  | .ldE_C => Sys2Proof.Machine.execLdE_C s
  | .ldE_D => Sys2Proof.Machine.execLdE_D s
  | .ldE_E => Sys2Proof.Machine.execLdE_E s
  | .ldE_H => Sys2Proof.Machine.execLdE_H s
  | .ldE_L => Sys2Proof.Machine.execLdE_L s
  | .ldE_AtHL => Sys2Proof.Machine.execLdE_AtHL s
  | .ldE_A => Sys2Proof.Machine.execLdE_A s
  | .ldH_B => Sys2Proof.Machine.execLdH_B s
  | .ldH_C => Sys2Proof.Machine.execLdH_C s
  | .ldH_D => Sys2Proof.Machine.execLdH_D s
  | .ldH_E => Sys2Proof.Machine.execLdH_E s
  | .ldH_H => Sys2Proof.Machine.execLdH_H s
  | .ldH_L => Sys2Proof.Machine.execLdH_L s
  | .ldH_AtHL => Sys2Proof.Machine.execLdH_AtHL s
  | .ldH_A => Sys2Proof.Machine.execLdH_A s
  | .ldL_B => Sys2Proof.Machine.execLdL_B s
  | .ldL_C => Sys2Proof.Machine.execLdL_C s
  | .ldL_D => Sys2Proof.Machine.execLdL_D s
  | .ldL_E => Sys2Proof.Machine.execLdL_E s
  | .ldL_H => Sys2Proof.Machine.execLdL_H s
  | .ldL_L => Sys2Proof.Machine.execLdL_L s
  | .ldL_AtHL => Sys2Proof.Machine.execLdL_AtHL s
  | .ldL_A => Sys2Proof.Machine.execLdL_A s
  | .ldAtHL_B => Sys2Proof.Machine.execLdAtHL_B s
  | .ldAtHL_C => Sys2Proof.Machine.execLdAtHL_C s
  | .ldAtHL_D => Sys2Proof.Machine.execLdAtHL_D s
  | .ldAtHL_E => Sys2Proof.Machine.execLdAtHL_E s
  | .ldAtHL_H => Sys2Proof.Machine.execLdAtHL_H s
  | .ldAtHL_L => Sys2Proof.Machine.execLdAtHL_L s
  | .ldAtHL_A => Sys2Proof.Machine.execLdAtHL_A s
  | .ldA_B => Sys2Proof.Machine.execLdA_B s
  | .ldA_C => Sys2Proof.Machine.execLdA_C s
  | .ldA_D => Sys2Proof.Machine.execLdA_D s
  | .ldA_E => Sys2Proof.Machine.execLdA_E s
  | .ldA_H => Sys2Proof.Machine.execLdA_H s
  | .ldA_L => Sys2Proof.Machine.execLdA_L s
  | .ldA_AtHL => Sys2Proof.Machine.execLdA_AtHL s
  | .ldA_A => Sys2Proof.Machine.execLdA_A s
  | .addA_B => Sys2Proof.Machine.execAddA_B s
  | .addA_C => Sys2Proof.Machine.execAddA_C s
  | .addA_D => Sys2Proof.Machine.execAddA_D s
  | .addA_E => Sys2Proof.Machine.execAddA_E s
  | .addA_H => Sys2Proof.Machine.execAddA_H s
  | .addA_L => Sys2Proof.Machine.execAddA_L s
  | .addA_A => Sys2Proof.Machine.execAddA_A s
  | .ldSP_HL => Sys2Proof.Machine.execLdSP_HL s

end Sys2Proof.Machine
end

