-- ==== Sys2Proof/Machine/Fetch.lean ====
section
/-! DEFINITION. The `fetch_unit` and the sequencing before the operation body: whether a step is enabled, the opcode fetch, the
table lookup and the operand fetch (40_step_cycle.md R130 to R133); and loading a program's bytes from outside. -/

namespace Sys2Proof.Machine

/-- Why no step is enabled, or none where one is: "if and only if `halted = false` and no fault has been recorded"
(40_step_cycle.md R130). -/
def State.noStep (s : State) : Option Refusal :=
  if s.halted then some .noStepHalted else if s.fault.isSome then some .noStepFaulted else none

/-- One fetched byte (40_step_cycle.md R131, R133): the read at `pc`, then `pc` modulo 2^16 past it. -/
def fetchByte (s : State) : Except Fault (Byte × State) :=
  match memRead s s.pc.toNat with
  | .ok (v, s1) => .ok (v, s1.setPc (s1.pc + 1))
  | .error f => .error f

/-- The operand fetch (40_step_cycle.md R133): no, one or two immediate bytes in ascending order. A byte that is not
fetched is answered as 0 and no table entry reads it. -/
def fetchImmediates (count : Nat) (s : State) : Except Fault ((Byte × Byte) × State) :=
  match count with
  | 0 => .ok ((0, 0), s)
  | 1 =>
    match fetchByte s with
    | .ok (b1, s1) => .ok ((b1, 0), s1)
    | .error f => .error f
  | _ =>
    match fetchByte s with
    | .ok (b1, s1) =>
      match fetchByte s1 with
      | .ok (b2, s2) => .ok ((b1, b2), s2)
      | .error f => .error f
    | .error f => .error f

/-- The step before the operation body (40_step_cycle.md R131 to R133): the instruction, and the state with `pc` past it
and every fetch counted. -/
def fetchInstr (s : State) : Except Fault (Instr × State) :=
  match fetchByte s with
  | .ok (op, s1) =>
    match lookup op with
    | none => .error (raise (.decodeError op) s1)
    | some build =>
      match fetchImmediates (immediateCount build) s1 with
      | .ok ((b1, b2), s2) => .ok (build b1 b2, s2)
      | .error f => .error f
  | .error f => .error f

/-! ### A program's bytes placed from outside the machine (log 4) -/

/-- A byte placed in the storage behind an address without the CPU: no cycle, no write gate. -/
def State.place (s : State) (addr : Word) (v : Byte) : State :=
  if addr.toNat < 0x8000 then { s with cart := { s.cart with image := s.cart.image.write addr.toNat v } }
  else { s with mem := s.mem.write addr.toNat v }

/-- Whether the router answers at an address. -/
def routable (addr : Int) : Bool := (route addr).isSome

/-- A state in which a step is enabled and its three bytes can be fetched: `pc` is kept where they can, else 0, the
entry point (log 22). -/
def State.readyToFetch (s : State) : State :=
  let ok := routable s.pc.toNat && routable (s.pc + 1).toNat && routable (s.pc + 2).toNat
  { s with halted := false, fault := none, pc := if ok then s.pc else 0x0000 }

/-- The bytes of a table word placed where the next step fetches. -/
def State.placeAtPc (s : State) (bytes : List Byte) : State :=
  match bytes with
  | [b0, b1, b2] => ((s.place s.pc b0).place (s.pc + 1) b1).place (s.pc + 2) b2
  | _ => s

end Sys2Proof.Machine
end

