-- ==== Sys2Proof/Machine/Step.lean ====
section
/-! DEFINITION. The step as one function, 40_step_cycle.md R140. -/

namespace Sys2Proof.Machine

/-- One call of `step()`: one whole instruction, to completion (R130). -/
def step (s : State) : Host.Outcome State Fault Refusal :=
  match s.noStep with
  | some r => .refused r
  | none =>
    match fetchInstr s with
    | .ok (i, s1) => exec i s1
    | .error f => .fault f

/-- The state with the instruction whose bits are `w` placed where the next step fetches (log 4, log 22). -/
def State.withFetchWord (s : State) (nbits w : Nat) : State :=
  s.readyToFetch.placeAtPc (tableBytes nbits w)

end Sys2Proof.Machine
end

