-- ==== Sys2Proof/Machine/Driver.lean ====
section
/-! DEFINITION. What the driver (the document's "host") can do to the core between steps: the surface of
60_exceptions.md R318 and 10_state.md R31. -/

namespace Sys2Proof.Machine

/-! ### Reads, which change nothing -/

/-- `isHalted()` (10_state.md R34). -/
def State.isHalted (s : State) : Bool := s.halted

/-- `getCycles()` (10_state.md R35). -/
def State.getCycles (s : State) : BitVec 64 := s.cycles

/-- AF, a view with F as its low half (10_state.md R25). -/
def State.af (s : State) : Word := combine s.a s.f.toByte

/-- `getValueFromRegister(r)` for the fourteen register names (R318): 8-bit results below 2^8, 16-bit below 2^16. -/
def State.getRegister (s : State) : RegisterType → Nat
  | .a => s.a.toNat
  | .b => s.b.toNat
  | .c => s.c.toNat
  | .d => s.d.toNat
  | .e => s.e.toNat
  | .f => s.f.toByte.toNat
  | .h => s.h.toNat
  | .l => s.l.toNat
  | .af => s.af.toNat
  | .bc => (s.r16 .bc).toNat
  | .de => (s.r16 .de).toNat
  | .hl => (s.r16 .hl).toNat
  | .sp => s.sp.toNat
  | .pc => s.pc.toNat

/-- `getZero`, `getSubtract`, `getHalfCarry`, `getCarry` (10_state.md R31). -/
def State.getFlag (s : State) (which : Flag) : Bool := s.f.get which

/-! ### Writes -/

/-- `setValueInRegister(v, r)`, the integer form (R318): masked to the register's width, F's low nibble discarded, a pair
in both halves at once, no cycle. -/
def State.setRegister (s : State) (v : Int) : RegisterType → State
  | .a => s.setR8 .a (BitVec.ofInt 8 v)
  | .b => s.setR8 .b (BitVec.ofInt 8 v)
  | .c => s.setR8 .c (BitVec.ofInt 8 v)
  | .d => s.setR8 .d (BitVec.ofInt 8 v)
  | .e => s.setR8 .e (BitVec.ofInt 8 v)
  | .f => s.setFlags (Flags.ofByte (BitVec.ofInt 8 v))
  | .h => s.setR8 .h (BitVec.ofInt 8 v)
  | .l => s.setR8 .l (BitVec.ofInt 8 v)
  | .af => (s.setR8 .a (highByte (BitVec.ofInt 16 v))).setFlags (Flags.ofByte (lowByte (BitVec.ofInt 16 v)))
  | .bc => s.setR16 .bc (BitVec.ofInt 16 v)
  | .de => s.setR16 .de (BitVec.ofInt 16 v)
  | .hl => s.setR16 .hl (BitVec.ofInt 16 v)
  | .sp => s.setR16 .sp (BitVec.ofInt 16 v)
  | .pc => s.setPc (BitVec.ofInt 16 v)

/-- The flag setters (10_state.md R31). -/
def State.setFlag (s : State) (which : Flag) (v : Bool) : State := s.setFlags (s.f.set which v)

/-! ### Bus accesses -/

/-- The data port is 8 bits: of an integer value only `v[7:0]` is stored (20_memory.md R63). -/
def dataPort (v : Int) : Byte := BitVec.ofInt 8 v

/-- The CPU's `readByteFromAddress(addr)`: one cycle (20_memory.md R76). -/
def cpuReadByte (s : State) (addr : Int) : Except Fault (Byte × State) := memRead s addr

/-- The CPU's `writeByteToAddress(value, addr)`: one cycle (20_memory.md R76). -/
def cpuWriteByte (s : State) (v addr : Int) : Except Fault State := memWrite s addr (dataPort v)

/-- The bus's `readByteFromAddress(addr)`: no cycle (20_memory.md R76). -/
def busReadByte (s : State) (addr : Int) : Except Fault Byte :=
  match busRead s addr with
  | some v => .ok v
  | none => .error (raise (.addressError addr .read) s)

/-- The bus's `writeByteToAddress(value, addr)`: no cycle (20_memory.md R76). -/
def busWriteByte (s : State) (v addr : Int) : Except Fault State :=
  match busWrite s addr (dataPort v) with
  | some t => .ok t
  | none => .error (raise (.addressError addr .write) s)

/-! ### The surface as one closed set of calls -/

/-- The calls of R318 that can change the core or fail; the accessors that only read are above. -/
inductive DriverCall where
  | setRegister (v : Int) (r : RegisterType)
  | setFlag (which : Flag) (v : Bool)
  | cpuRead (addr : Int)
  | cpuWrite (v addr : Int)
  | busRead (addr : Int)
  | busWrite (v addr : Int)
deriving DecidableEq, Repr

/-- The state after a driver call, or the fault it fails with, which is recorded as any other (log 18). -/
def driverCall (call : DriverCall) (s : State) : Except Fault State :=
  match call with
  | .setRegister v r => .ok (s.setRegister v r)
  | .setFlag which v => .ok (s.setFlag which v)
  | .cpuRead addr =>
    match cpuReadByte s addr with
    | .ok (_, t) => .ok t
    | .error f => .error f
  | .cpuWrite v addr => cpuWriteByte s v addr
  | .busRead addr =>
    match busReadByte s addr with
    | .ok _ => .ok s
    | .error f => .error f
  | .busWrite v addr => busWriteByte s v addr

end Sys2Proof.Machine
end

