-- ==== Sys2Proof/Safety.lean ====
section
/-! DEFINITION. The terms claims use: the invariant of the machine, runs and how they end (70_reset_and_hazards.md R347), what a
fault says, what an instruction names, frames, and the families of instructions by their operands. None of it is read by the machine. -/

namespace Sys2Proof

/-! ### Families of 30_encoding.md R105, by operand -/

/-- The seven `LD r,d8` (41_loads.md R150). -/
def Instr.loadImm8 : R8 → Byte → Instr
  | .b, d8 => .ldB_d8 d8
  | .c, d8 => .ldC_d8 d8
  | .d, d8 => .ldD_d8 d8
  | .e, d8 => .ldE_d8 d8
  | .h, d8 => .ldH_d8 d8
  | .l, d8 => .ldL_d8 d8
  | .a, d8 => .ldA_d8 d8

/-- The four `LD rr,d16` (R151). -/
def Instr.loadImm16 : R16 → Word → Instr
  | .bc, d16 => .ldBC_d16 d16
  | .de, d16 => .ldDE_d16 d16
  | .hl, d16 => .ldHL_d16 d16
  | .sp, d16 => .ldSP_d16 d16

/-- The 49 `LD r,r'`, destination first (R152). -/
def Instr.loadReg : R8 → R8 → Instr
  | .a, .a => .ldA_A
  | .a, .b => .ldA_B
  | .a, .c => .ldA_C
  | .a, .d => .ldA_D
  | .a, .e => .ldA_E
  | .a, .h => .ldA_H
  | .a, .l => .ldA_L
  | .b, .a => .ldB_A
  | .b, .b => .ldB_B
  | .b, .c => .ldB_C
  | .b, .d => .ldB_D
  | .b, .e => .ldB_E
  | .b, .h => .ldB_H
  | .b, .l => .ldB_L
  | .c, .a => .ldC_A
  | .c, .b => .ldC_B
  | .c, .c => .ldC_C
  | .c, .d => .ldC_D
  | .c, .e => .ldC_E
  | .c, .h => .ldC_H
  | .c, .l => .ldC_L
  | .d, .a => .ldD_A
  | .d, .b => .ldD_B
  | .d, .c => .ldD_C
  | .d, .d => .ldD_D
  | .d, .e => .ldD_E
  | .d, .h => .ldD_H
  | .d, .l => .ldD_L
  | .e, .a => .ldE_A
  | .e, .b => .ldE_B
  | .e, .c => .ldE_C
  | .e, .d => .ldE_D
  | .e, .e => .ldE_E
  | .e, .h => .ldE_H
  | .e, .l => .ldE_L
  | .h, .a => .ldH_A
  | .h, .b => .ldH_B
  | .h, .c => .ldH_C
  | .h, .d => .ldH_D
  | .h, .e => .ldH_E
  | .h, .h => .ldH_H
  | .h, .l => .ldH_L
  | .l, .a => .ldL_A
  | .l, .b => .ldL_B
  | .l, .c => .ldL_C
  | .l, .d => .ldL_D
  | .l, .e => .ldL_E
  | .l, .h => .ldL_H
  | .l, .l => .ldL_L

/-- The seven `LD r,(HL)` (R156). -/
def Instr.loadAtHL : R8 → Instr
  | .b => .ldB_AtHL
  | .c => .ldC_AtHL
  | .d => .ldD_AtHL
  | .e => .ldE_AtHL
  | .h => .ldH_AtHL
  | .l => .ldL_AtHL
  | .a => .ldA_AtHL

/-- The seven `LD (HL),r` (R159). -/
def Instr.storeAtHL : R8 → Instr
  | .b => .ldAtHL_B
  | .c => .ldAtHL_C
  | .d => .ldAtHL_D
  | .e => .ldAtHL_E
  | .h => .ldAtHL_H
  | .l => .ldAtHL_L
  | .a => .ldAtHL_A

/-- The seven `ADD A,r` (42_add.md R200). -/
def Instr.addA : R8 → Instr
  | .b => .addA_B
  | .c => .addA_C
  | .d => .addA_D
  | .e => .addA_E
  | .h => .addA_H
  | .l => .addA_L
  | .a => .addA_A

/-- The four `ADD HL,rr` (R201). -/
def Instr.addHL : R16 → Instr
  | .bc => .addHL_BC
  | .de => .addHL_DE
  | .hl => .addHL_HL
  | .sp => .addHL_SP

/-- The seven `INC r` (43_incdec.md R210). -/
def Instr.incReg : R8 → Instr
  | .b => .incB
  | .c => .incC
  | .d => .incD
  | .e => .incE
  | .h => .incH
  | .l => .incL
  | .a => .incA

/-- The seven `DEC r` (R211). -/
def Instr.decReg : R8 → Instr
  | .b => .decB
  | .c => .decC
  | .d => .decD
  | .e => .decE
  | .h => .decH
  | .l => .decL
  | .a => .decA

/-- The four `INC rr` (R212). -/
def Instr.incPair : R16 → Instr
  | .bc => .incBC
  | .de => .incDE
  | .hl => .incHL
  | .sp => .incSP

/-- The four `DEC rr` (R213). -/
def Instr.decPair : R16 → Instr
  | .bc => .decBC
  | .de => .decDE
  | .hl => .decHL
  | .sp => .decSP

/-- The register code of 41_loads.md R152: B = 0, C = 1, D = 2, E = 3, H = 4, L = 5, A = 7. -/
def R8.code : R8 → Nat
  | .b => 0 | .c => 1 | .d => 2 | .e => 3 | .h => 4 | .l => 5 | .a => 7

/-- The pair code the opcodes of 41_loads.md R151, 42_add.md R201 and 43_incdec.md R212, R213 rise with: BC = 0, DE = 1, HL = 2,
SP = 3. -/
def R16.code : R16 → Nat
  | .bc => 0 | .de => 1 | .hl => 2 | .sp => 3

/-- The 8-bit registers a register name covers: itself, or the halves of the pair it names (10_state.md R21, R24). -/
def RegisterType.covers : RegisterType → R8 → Bool
  | .a, r | .af, r => r == .a
  | .b, r => r == .b
  | .c, r => r == .c
  | .d, r => r == .d
  | .e, r => r == .e
  | .h, r => r == .h
  | .l, r => r == .l
  | .bc, r => r == .b || r == .c
  | .de, r => r == .d || r == .e
  | .hl, r => r == .h || r == .l
  | .f, _ | .sp, _ | .pc, _ => false

/-- A column of the table names a register that contains `r`. -/
def OperandField.covers : OperandField → R8 → Bool
  | .reg name, r => name.covers r
  | .absent, _ | .d8, _ | .d16, _ | .e8, _ | .a16, _ => false

/-- "An instruction's source or destination names it, or names a pair that contains it" (10_state.md R21). -/
def Instr.names (i : Instr) (r : R8) : Bool := i.tuple.source.covers r || i.tuple.destination.covers r

/-- The 8-bit halves of a 16-bit register, none for SP (10_state.md R24, R26). -/
def R16.halves : R16 → List R8
  | .bc => [.b, .c]
  | .de => [.d, .e]
  | .hl => [.h, .l]
  | .sp => []

/-- The cycle total of a whole step (40_step_cycle.md R137), by operation kind and mode; `taken` counts for a relative
jump only. -/
def OpKind.cycleTotal (taken : Bool) : OpKind → AddrMode → Nat
  | .ld, .imm8ToReg => 2
  | .ld, .imm16ToReg => 3
  | .ld, .regToReg => 1
  | .ld, .pairToPair => 2
  | .ld, .memPairToReg => 2
  | .ld, .regToMemPair => 2
  | .ld, .memPairToRegInc => 3
  | .ld, .memPairToRegDec => 3
  | .ld, .pairToMemImm16 => 5
  | .add, .pairToPair => 2
  | .inc, .pair => 2
  | .dec, .pair => 2
  | .inc, .memPair => 3
  | .dec, .memPair => 3
  | .jr, .rel8 => if taken then 3 else 2
  | _, _ => 1

namespace Machine

/-! ### Addresses -/

/-- An address some region of 20_memory.md R60 holds: the map without the gap of R64. -/
abbrev InMap (addr : Int) : Prop := 0 ≤ addr ∧ addr ≤ 0xFFFF ∧ ¬(0xFEA0 ≤ addr ∧ addr ≤ 0xFEFF)

/-- An address of the nine bus buffers (10_state.md R40). -/
abbrev InBuffers (addr : Int) : Prop := 0x8000 ≤ addr ∧ InMap addr

/-- An address of the cartridge (10_state.md R41). -/
abbrev InCart (addr : Int) : Prop := 0 ≤ addr ∧ addr ≤ 0x7FFF

/-! ### The invariant -/

/-- Memory and cartridge image are canonical, and each lists only addresses that are its own. -/
abbrev State.Inv (s : State) : Prop :=
  s.mem.wf ∧ (∀ x ∈ s.mem, InBuffers x.1) ∧ s.cart.image.wf ∧ ∀ x ∈ s.cart.image, InCart x.1

/-! ### Runs -/

/-- A step is enabled (40_step_cycle.md R130). -/
abbrev State.Enabled (s : State) : Prop := s.halted = false ∧ s.fault = none

/-- The one successful end of a run: "`halted` without a fault" (70_reset_and_hazards.md R347). -/
abbrev State.SuccessfulEnd (s : State) : Prop := s.halted = true ∧ s.fault = none

/-- A state of a run that completed steps reach from construction, "possibly with host calls between steps"
(70_reset_and_hazards.md R347) that complete too, on a machine built from the parameters of 00_scope.md R7. The state that a fault
leaves ends a run and is left out (logs 7, 18). -/
inductive Reachable (mode : JrCarryMode) (busInit : Memory) (cart : Cart) : State → Prop
  | construct : Reachable mode busInit cart (State.construct mode busInit cart)
  | step {s t : State} : Reachable mode busInit cart s → step s = .next t → Reachable mode busInit cart t
  | driver {s t : State} (call : DriverCall) :
      Reachable mode busInit cart s → driverCall call s = .ok t → Reachable mode busInit cart t

/-- The state before the operation body: `pc` past `n` bytes, each fetch counted (40_step_cycle.md R131, R133). -/
def State.fetched (s : State) (n : Nat) : State :=
  { s with pc := s.pc + BitVec.ofNat 16 n, cycles := s.cycles + BitVec.ofNat 64 n }

/-- The operation body of one instruction, `n` times over. -/
def execTimes : Nat → Instr → State → Out
  | 0, _, s => .next s
  | n + 1, i, s =>
    match exec i s with
    | .next t => execTimes n i t
    | .fault f => .fault f
    | .refused r => .refused r

/-- The counter after the whole step of `i` is `total` above its value before it, where the operation body takes `s`, with
every byte of `i` fetched and counted, to `t` (40_step_cycle.md R136, R137). -/
def StepCycles (i : Instr) (s t : State) (total : Nat) : Prop :=
  i.length ≤ total ∧ t.cycles = s.cycles + BitVec.ofNat 64 (total - i.length)

/-! ### Faults -/

/-- The kind and information of a fault (60_exceptions.md R300). -/
def Fault.record : Fault → FaultRecord
  | .decodeError op _ => .decodeError op
  | .executionError what _ => .executionError what
  | .addressError addr dir _ => .addressError addr dir

/-- The state a fault leaves (60_exceptions.md R306). -/
def Fault.left : Fault → State
  | .decodeError _ s => s
  | .executionError _ s => s
  | .addressError _ _ s => s

/-! ### Frames -/

/-- Every bus byte reads as before, and the cartridge is as before. -/
def SameMemory (s t : State) : Prop := (∀ addr, busRead t addr = busRead s addr) ∧ t.cart = s.cart

/-- Every bus byte outside `stored` reads as before; the cartridge is as before unless a stored address is the
cartridge's and the cartridge is not ROM-only (20_memory.md R68). -/
def SameMemoryExcept (s t : State) (stored : List Int) : Prop :=
  (∀ addr, InBuffers addr → addr ∉ stored → busRead t addr = busRead s addr) ∧
  ((∀ addr ∈ stored, ¬InCart addr) ∨ s.cart.romOnly = true → t.cart = s.cart)

/-- The 8-bit registers outside `written` are as before. -/
def SameR8Except (s t : State) (written : List R8) : Prop := ∀ r, r ∉ written → t.r8 r = s.r8 r

/-- `halted`, the fault record and the parameter are as before. -/
def SameControl (s t : State) : Prop :=
  t.halted = s.halted ∧ t.fault = s.fault ∧ t.jrCarryMode = s.jrCarryMode

/-- What a fault at an access leaves beside what the instruction had done in `s`: the fault recorded, `cycles` counting
the access or not (40_step_cycle.md R139), nothing else changed. The record and "no rollback" are the spec's decision D17: log 7. -/
def FaultsWith (s : State) (addr : Int) (dir : AccessDir) (f : Fault) : Prop :=
  ∃ left, f = .addressError addr dir left ∧ (left.cycles = s.cycles ∨ left.cycles = s.cycles + 1) ∧
    left = { s with cycles := left.cycles, fault := some (.addressError addr dir) }

end Machine

end Sys2Proof
end

