-- ==== Sys2Proof/WellFormed.lean ====
section
/-! DEFINITION. Well-formedness of an Instruction tuple, "the opcode table is internally [consistent]"
(60_exceptions.md R302): the kind supports the mode, only a relative jump has a condition, the operands are of the
sort the mode names, and no constant stands in the table entry. Operand values need no check: each immediate has the width of its field in its type. -/

namespace Sys2Proof

/-- The seven general 8-bit registers among the fourteen names; F is never an operand (41_loads.md R152). -/
def RegisterType.isGeneral8 : RegisterType → Bool
  | .a | .b | .c | .d | .e | .h | .l => true
  | .f | .af | .bc | .de | .hl | .sp | .pc => false

/-- The 16-bit registers an instruction names (41_loads.md, the range of `rr`). -/
def RegisterType.isOperand16 : RegisterType → Bool
  | .bc | .de | .hl | .sp => true
  | .a | .b | .c | .d | .e | .f | .h | .l | .af | .pc => false

/-- The pairs that may hold an address (41_loads.md R164, register-pair indirect). -/
def RegisterType.isAddressPair : RegisterType → Bool
  | .bc | .de | .hl => true
  | .a | .b | .c | .d | .e | .f | .h | .l | .af | .sp | .pc => false

/-- An operand column that names a register which passes the check. -/
def OperandField.isReg (check : RegisterType → Bool) : OperandField → Bool
  | .reg r => check r
  | .absent | .d8 | .d16 | .e8 | .a16 => false

/-- The (kind, mode) pairs that some rule of files 41 to 47 supports (60_exceptions.md R302). -/
def OpKind.supports : OpKind → AddrMode → Bool
  | .nop, m | .stop, m | .daa, m | .cpl, m | .scf, m | .rlca, m | .rrca, m | .rla, m | .rra, m => m == .none
  | .ld, m => [.imm8ToReg, .imm16ToReg, .regToReg, .pairToPair, .memPairToReg, .regToMemPair, .memPairToRegInc,
      .memPairToRegDec, .pairToMemImm16].contains m
  | .add, m => [.regToReg, .pairToPair].contains m
  | .inc, m | .dec, m => [.reg, .pair, .memPair].contains m
  | .jr, m => m == .rel8

/-- Check 1: the kind supports the mode. -/
def Tuple.kindFits (t : Tuple) : Bool := t.kind.supports t.mode

/-- Check 2: a condition stands only with a relative jump (30_encoding.md R104, R105). -/
def Tuple.conditionFits (t : Tuple) : Bool := t.condition.isNone || t.mode == .rel8

/-- Check 3: source and destination are what the mode of 30_encoding.md R104 names. -/
def Tuple.operandsFit (t : Tuple) : Bool :=
  match t.mode with
  | .none => t.source == t.destination && (t.source == .absent || t.source == .reg .a)
  | .reg => t.source == t.destination && t.source.isReg RegisterType.isGeneral8
  | .pair => t.source == t.destination && t.source.isReg RegisterType.isOperand16
  | .memPair => t.source == t.destination && t.source.isReg RegisterType.isAddressPair
  | .imm8ToReg => t.source == .d8 && t.destination.isReg RegisterType.isGeneral8
  | .imm16ToReg => t.source == .d16 && t.destination.isReg RegisterType.isOperand16
  | .regToReg => t.source.isReg RegisterType.isGeneral8 && t.destination.isReg RegisterType.isGeneral8
  | .pairToPair => t.source.isReg RegisterType.isOperand16 && t.destination.isReg RegisterType.isOperand16
  | .memPairToReg | .memPairToRegInc | .memPairToRegDec =>
    t.source.isReg RegisterType.isAddressPair && t.destination.isReg RegisterType.isGeneral8
  | .regToMemPair => t.source.isReg RegisterType.isGeneral8 && t.destination.isReg RegisterType.isAddressPair
  | .pairToMemImm16 => t.source.isReg RegisterType.isOperand16 && t.destination == .a16
  | .rel8 => t.source == .e8 && t.destination == .reg .pc

/-- Check 4: no constant immediate, since no operation body reads one (30_encoding.md R102; DEDUCED, safe: log 26). -/
def Tuple.immediateFits (t : Tuple) : Bool := t.immediate.isNone

/-- A tuple the operation bodies support. -/
def Tuple.wf (t : Tuple) : Bool := t.kindFits && t.conditionFits && t.operandsFit && t.immediateFits

/-- An instruction is well formed when its tuple is. -/
abbrev Instr.WellFormed (i : Instr) : Prop := i.tuple.wf = true

end Sys2Proof
end

