-- ==== Sys2Proof/Certificates/Slice0/Obligations.lean ====
section
/-! DEFINITION. The statements for the provers. In a statement about `exec`, `s` is the state before the operation body: the
opcode and its immediates are fetched and counted (30_encoding.md, 40_step_cycle.md R131 to R134). -/

open Sys2Proof Sys2Proof.Machine

/-! ### Construction and reset -/

/-- 70_reset_and_hazards.md R341: the values of the CPU's state at construction, whatever the parameters. -/
def Obligations.ConstructionLeavesTheStatedValues : Prop :=
  ∀ (mode : JrCarryMode) (busInit : Memory) (cart : Cart),
    let s := State.construct mode busInit cart
    (∀ r, s.r8 r = 0) ∧ s.f = ⟨false, false, false, false⟩ ∧
    s.getRegister .f = 0 ∧ s.getRegister .af = 0 ∧ s.getRegister .bc = 0 ∧ s.getRegister .de = 0 ∧
    s.getRegister .hl = 0 ∧ s.sp = 0 ∧ s.pc = 0 ∧ s.halted = false ∧ s.cycles = 0 ∧ s.fault = none

/-- 70_reset_and_hazards.md R342: the first fetch of a newly built machine reads the cartridge's byte at 0x0000. -/
def Obligations.FirstFetchReadsCartridgeByteZero : Prop :=
  ∀ (mode : JrCarryMode) (busInit : Memory) (cart : Cart),
    let s := State.construct mode busInit cart
    fetchByte s = .ok (Cart.read cart 0x0000, s.fetched 1)

/-- The invariant holds in every machine built from canonical parameters, `State.reset` among them. The parameters of
`State.reset` are the model's choice: logs 2, 3, 4. -/
def Obligations.InvariantHoldsAtConstruction : Prop :=
  (∀ (mode : JrCarryMode) (busInit : Memory) (cart : Cart),
    busInit.wf → (∀ x ∈ busInit, InBuffers x.1) → cart.image.wf → (∀ x ∈ cart.image, InCart x.1) →
      (State.construct mode busInit cart).Inv) ∧
  State.reset.Inv

/-! ### The invariant of steps and runs -/

/-- Every step keeps memory and cartridge image canonical and within their own addresses (10_state.md R40, R41). -/
def Obligations.StepKeepsTheInvariant : Prop :=
  ∀ s t : State, s.Inv → step s = .next t → t.Inv

/-- Every state that completed steps and driver calls reach from construction meets the invariant, keeps the parameter `JR_CARRY_MODE`
(70_reset_and_hazards.md R344), keeps a ROM-only cartridge as it was loaded (20_memory.md R68) and has no fault recorded. The state
that a failing step or call leaves is none of these: its fault is recorded (10_state.md R42, 70_reset_and_hazards.md R347; the spec's
decision D17, log 7; for a driver's call the model's deduction, log 18). -/
def Obligations.ReachableStatesMeetTheInvariant : Prop :=
  ∀ (mode : JrCarryMode) (busInit : Memory) (cart : Cart),
    busInit.wf → (∀ x ∈ busInit, InBuffers x.1) → cart.image.wf → (∀ x ∈ cart.image, InCart x.1) →
      ∀ s, Reachable mode busInit cart s →
        s.Inv ∧ s.jrCarryMode = mode ∧ s.fault = none ∧ (cart.romOnly = true → s.cart = cart)

/-! ### Encoding -/

/-- Decoding the bytes of any instruction, whatever follows them, gives the instruction back. -/
def Obligations.DecodingAnEncodingGivesTheInstruction : Prop :=
  ∀ (i : Instr) (rest : List Byte), decode (encode i ++ rest) = .ok (i, rest)

/-- Bytes that decode are the encoding of what they decode to, followed by the rest: no two byte sequences share an
instruction. -/
def Obligations.DecodedBytesAreTheEncoding : Prop :=
  ∀ (bytes rest : List Byte) (i : Instr), decode bytes = .ok (i, rest) → bytes = encode i ++ rest

/-- The bytes without a table entry are those 30_encoding.md R107 lists, and they are 125. Which bytes those are is PRESUMED by
the spec from the SM83 (92_eei_decisions.md D1, D2: log 1; 0x76 among them D12: log 24). -/
def Obligations.AbsentOpcodesAreTheListedOnes : Prop :=
  (∀ op : Byte, lookup op = none ↔
    (op.toNat ∈ [0x22, 0x32, 0x36, 0x3F, 0x76, 0x86] ∨ (0x88 ≤ op.toNat ∧ op.toNat ≤ 0xF8) ∨
      (0xFA ≤ op.toNat ∧ op.toNat ≤ 0xFF))) ∧
  ((List.range 256).filter fun n => (lookup (BitVec.ofNat 8 n)).isNone).length = 125

/-- The opcode of every instruction, as the rules of files 41 to 47 list them: by register code where a family runs over
registers, one by one elsewhere (numbers PRESUMED by the spec from the SM83, immediates low byte first, `STOP` one byte: logs 1, 11,
24). -/
def Obligations.OpcodesFollowTheRegisterCode : Prop :=
  (∀ dst src : R8, encode (Instr.loadReg dst src) = [BitVec.ofNat 8 (0x40 + 8 * dst.code + src.code)]) ∧
  (∀ (r : R8) (d8 : Byte), encode (Instr.loadImm8 r d8) = [BitVec.ofNat 8 (0x06 + 8 * r.code), d8]) ∧
  (∀ r : R8, encode (Instr.loadAtHL r) = [BitVec.ofNat 8 (0x46 + 8 * r.code)]) ∧
  (∀ r : R8, encode (Instr.storeAtHL r) = [BitVec.ofNat 8 (0x70 + r.code)]) ∧
  (∀ r : R8, encode (Instr.addA r) = [BitVec.ofNat 8 (0x80 + r.code)]) ∧
  (∀ r : R8, encode (Instr.incReg r) = [BitVec.ofNat 8 (0x04 + 8 * r.code)]) ∧
  (∀ r : R8, encode (Instr.decReg r) = [BitVec.ofNat 8 (0x05 + 8 * r.code)]) ∧
  (∀ (p : R16) (d16 : Word), encode (Instr.loadImm16 p d16) =
    [BitVec.ofNat 8 (0x01 + 16 * p.code), BitVec.ofNat 8 d16.toNat, BitVec.ofNat 8 (d16.toNat / 256)]) ∧
  (∀ p : R16, encode (Instr.incPair p) = [BitVec.ofNat 8 (0x03 + 16 * p.code)]) ∧
  (∀ p : R16, encode (Instr.addHL p) = [BitVec.ofNat 8 (0x09 + 16 * p.code)]) ∧
  (∀ p : R16, encode (Instr.decPair p) = [BitVec.ofNat 8 (0x0B + 16 * p.code)]) ∧
  (∀ a16 : Word, encode (.ldAtA16_SP a16) =
    [0x08, BitVec.ofNat 8 a16.toNat, BitVec.ofNat 8 (a16.toNat / 256)]) ∧
  encode .ldAtBC_A = [0x02] ∧ encode .ldAtDE_A = [0x12] ∧ encode .ldA_AtBC = [0x0A] ∧ encode .ldA_AtDE = [0x1A] ∧
  encode .ldA_AtHLInc = [0x2A] ∧ encode .ldA_AtHLDec = [0x3A] ∧ encode .ldSP_HL = [0xF9] ∧
  encode .incAtHL = [0x34] ∧ encode .decAtHL = [0x35] ∧
  encode .daa = [0x27] ∧ encode .cpl = [0x2F] ∧ encode .scf = [0x37] ∧
  encode .rlca = [0x07] ∧ encode .rrca = [0x0F] ∧ encode .rla = [0x17] ∧ encode .rra = [0x1F] ∧
  (∀ e8 : Byte, encode (.jr e8) = [0x18, e8] ∧ encode (.jrNZ e8) = [0x20, e8] ∧ encode (.jrZ e8) = [0x28, e8] ∧
    encode (.jrNC e8) = [0x30, e8] ∧ encode (.jrC e8) = [0x38, e8]) ∧
  encode .nop = [0x00] ∧ encode .stop = [0x10]

/-- Words written out from 30_encoding.md R101, R105, one of each kind of each family, decode to what they stand for. The opcode
numbers are PRESUMED by the spec (log 1), the immediates' low byte first too (log 11); that `STOP` is one byte and 0x76 absent is
its decision D12 (log 24). -/
def Obligations.WordsWrittenOutDecode : Prop :=
  decode [0x06, 0x7F] = .ok (.ldB_d8 0x7F, []) ∧
  decode [0x21, 0x34, 0xC0] = .ok (.ldHL_d16 0xC034, []) ∧
  decode [0x08, 0x00, 0xC1] = .ok (.ldAtA16_SP 0xC100, []) ∧
  decode [0x47] = .ok (.ldB_A, []) ∧ decode [0xF9] = .ok (.ldSP_HL, []) ∧
  decode [0x0A] = .ok (.ldA_AtBC, []) ∧ decode [0x1A] = .ok (.ldA_AtDE, []) ∧ decode [0x46] = .ok (.ldB_AtHL, []) ∧
  decode [0x02] = .ok (.ldAtBC_A, []) ∧ decode [0x12] = .ok (.ldAtDE_A, []) ∧ decode [0x74] = .ok (.ldAtHL_H, []) ∧
  decode [0x2A] = .ok (.ldA_AtHLInc, []) ∧ decode [0x3A] = .ok (.ldA_AtHLDec, []) ∧
  decode [0x80] = .ok (.addA_B, []) ∧ decode [0x39] = .ok (.addHL_SP, []) ∧
  decode [0x0C] = .ok (.incC, []) ∧ decode [0x05] = .ok (.decB, []) ∧
  decode [0x03] = .ok (.incBC, []) ∧ decode [0x0B] = .ok (.decBC, []) ∧
  decode [0x34] = .ok (.incAtHL, []) ∧ decode [0x35] = .ok (.decAtHL, []) ∧
  decode [0x27] = .ok (.daa, []) ∧ decode [0x2F] = .ok (.cpl, []) ∧ decode [0x37] = .ok (.scf, []) ∧
  decode [0x07] = .ok (.rlca, []) ∧ decode [0x0F] = .ok (.rrca, []) ∧
  decode [0x17] = .ok (.rla, []) ∧ decode [0x1F] = .ok (.rra, []) ∧
  decode [0x18, 0x0A] = .ok (.jr 0x0A, []) ∧ decode [0x20, 0xFC] = .ok (.jrNZ 0xFC, []) ∧
  decode [0x28, 0xFC] = .ok (.jrZ 0xFC, []) ∧ decode [0x30, 0x02] = .ok (.jrNC 0x02, []) ∧
  decode [0x38, 0x02] = .ok (.jrC 0x02, []) ∧
  decode [0x00] = .ok (.nop, []) ∧ decode [0x10, 0x00] = .ok (.stop, [0x00]) ∧
  decode [0x76] = .error (.noEntry 0x76)

/-- Every row of the table is one its rule supports (60_exceptions.md R302), and its length is the opcode and the immediates its
mode asks for, none, one or two (30_encoding.md R100, R101, R104). No row holds the tuple's constant immediate: DEDUCED from R102's
"no admitted instruction uses it", log 26. -/
def Obligations.TableRowsAreWellFormedAndSized : Prop :=
  ∀ i : Instr, i.WellFormed ∧ (encode i).length = i.length ∧ i.length = 1 + i.tuple.mode.immBytes ∧
    i.tuple.mode.immBytes ≤ 2 ∧ i.tuple.immediate = none

/-! ### The step -/

/-- Where the bytes at `pc` decode to `i`, the step is the operation body of `i` at the state past its bytes
(40_step_cycle.md R130 to R134, R140). -/
def Obligations.StepRunsTheDecodedInstruction : Prop :=
  ∀ (s : State) (bytes rest : List Byte) (i : Instr), s.Enabled → decode bytes = .ok (i, rest) →
    (∀ k, k < i.length → busRead s (s.pc + BitVec.ofNat 16 k).toNat = bytes[k]?) →
      step s = exec i (s.fetched i.length)

/-- 40_step_cycle.md R130: no step is enabled exactly where `halted` is true or a fault is recorded; no instruction refuses.
That such a core has no step is the spec's decision D18, and that `step` answers this as a refusal is DEDUCED: log 8. -/
def Obligations.StepIsRefusedExactlyWhenNotEnabled : Prop :=
  (∀ s : State, (∃ r, step s = .refused r) ↔ ¬(s.halted = false ∧ s.fault = none)) ∧
  ∀ (i : Instr) (s : State) (r : Refusal), exec i s ≠ .refused r

/-- 40_step_cycle.md R131: the byte at `pc`, then `pc` modulo 2^16 past it, one cycle; or `AddressError`, with which the
step ends. What the fault leaves (recorded, nothing rolled back) is the spec's decision D17 (R139, 60_exceptions.md R306): log 7; the
count of the failing access is free: log 6. -/
def Obligations.OpcodeFetchReadsThenAdvances : Prop :=
  ∀ s : State,
    (∀ op, busRead s s.pc.toNat = some op →
      ∃ t, fetchByte s = .ok (op, t) ∧ t.pc.toNat = (s.pc.toNat + 1) % 2 ^ 16 ∧
        t = { s with pc := t.pc, cycles := s.cycles + 1 }) ∧
    (busRead s s.pc.toNat = none →
      (∃ f, fetchByte s = .error f ∧ FaultsWith s s.pc.toNat .read f) ∧
      (s.Enabled → ∃ f, step s = .fault f ∧ FaultsWith s s.pc.toNat .read f))

/-- 60_exceptions.md R301: an opcode without an entry raises `DecodeError` with the opcode; `pc` and `cycles` have
counted the fetch. Nothing else raises it, no immediate byte among them. That the fault is recorded in the state left and all else stays
is the spec's decision D17 (10_state.md R42, 40_step_cycle.md R139): log 7. -/
def Obligations.AbsentOpcodeRaisesDecodeError : Prop :=
  (∀ (s : State) (op : Byte), s.Enabled → busRead s s.pc.toNat = some op → lookup op = none →
    step s = .fault (.decodeError op
      { s with pc := s.pc + 1, cycles := s.cycles + 1, fault := some (.decodeError op) })) ∧
  ∀ (s left : State) (op : Byte), step s = .fault (.decodeError op left) →
    busRead s s.pc.toNat = some op ∧ lookup op = none

/-- A byte of an instruction that lies at an unroutable address makes the step fail there, with the bytes before it fetched
and counted (40_step_cycle.md R133, R139; 60_exceptions.md R308). That they stay so and the fault is recorded is the spec's decision
D17, no rollback: log 7; the count of the failing access is free: log 6. -/
def Obligations.FetchFaultLeavesEarlierBytesFetched : Prop :=
  ∀ (s : State) (i : Instr) (k : Nat), s.Enabled → k < i.length →
    (∀ j, j < k → busRead s (s.pc + BitVec.ofNat 16 j).toNat = (encode i)[j]?) →
    ¬InMap (s.pc + BitVec.ofNat 16 k).toNat →
      ∃ f, step s = .fault f ∧ FaultsWith (s.fetched k) (s.pc + BitVec.ofNat 16 k).toNat .read f

/-- After a fault: it is recorded in the state it leaves, which is not halted, and no further step is enabled there
(10_state.md R42, 60_exceptions.md R305, R307). The record is the spec's own rendering, its decision D17: log 7; the refusal after it is
DEDUCED: log 8. -/
def Obligations.FaultEndsTheRun : Prop :=
  ∀ (s : State) (f : Fault), step s = .fault f →
    f.left.fault = some f.record ∧ f.left.halted = false ∧ step f.left = .refused .noStepFaulted

/-- Which instructions fail in their body, with which fault and in which direction (60_exceptions.md R302, R303). -/
def Obligations.BodyFaultsOnlyAsListed : Prop :=
  ∀ (i : Instr) (s : State) (f : Fault), exec i s = .fault f →
    (∃ addr left, f = .addressError addr .read left ∧
      i.tuple.mode ∈ [.memPairToReg, .memPairToRegInc, .memPairToRegDec, .memPair]) ∨
    (∃ addr left, f = .addressError addr .write left ∧ i.tuple.mode ∈ [.regToMemPair, .pairToMemImm16]) ∨
    (∃ left, f = .executionError .nc left ∧ i.tuple.condition = some .nc ∧ s.jrCarryMode = .fault) ∨
    (∃ left, f = .executionError .c left ∧ i.tuple.condition = some .c ∧ s.jrCarryMode = .fault)

/-- The cycle totals of 40_step_cycle.md R137, for every instruction that completes. Several costs are the spec's own decisions
(92_eei_decisions.md D13, D14): log 12. -/
def Obligations.CycleTotalsFollowTheTable : Prop :=
  ∀ (s u t : State) (i : Instr), fetchInstr s = .ok (i, u) → step s = .next t →
    t.cycles = s.cycles + BitVec.ofNat 64
      (i.tuple.kind.cycleTotal (evalCond u.jrCarryMode u.f i.tuple.condition matches .ok true) i.tuple.mode)

/-- "Only the relative jump writes `pc` in its body" (10_state.md R28): every other completed step leaves `pc` past the
instruction, modulo 2^16. -/
def Obligations.PcPassesTheInstruction : Prop :=
  ∀ (s u t : State) (i : Instr), fetchInstr s = .ok (i, u) → step s = .next t → i.tuple.mode ≠ .rel8 →
    t.pc.toNat = (s.pc.toNat + i.length) % 2 ^ 16

/-- 10_state.md R34: false at construction; set by `STOP` and by nothing else; cleared by no step and no driver call. -/
def Obligations.HaltedIsSetByStopAlone : Prop :=
  (∀ (mode : JrCarryMode) (busInit : Memory) (cart : Cart),
    (State.construct mode busInit cart).isHalted = false) ∧
  (∀ (i : Instr) (s t : State), exec i s = .next t →
    t.isHalted = if i = .stop then true else s.isHalted) ∧
  (∀ (s t : State), step s = .next t → (t.isHalted = true ↔ ∃ u, fetchInstr s = .ok (.stop, u))) ∧
  (∀ (call : DriverCall) (s t : State), driverCall call s = .ok t → t.isHalted = s.isHalted)

/-- No instruction reads the cycle counter: a run that starts with another count differs in the count alone
(40_step_cycle.md R138, 70_reset_and_hazards.md R350). -/
def Obligations.CycleCounterInfluencesNothing : Prop :=
  ∀ (s t : State) (n : BitVec 64), step s = .next t →
    step { s with cycles := s.cycles + n } = .next { t with cycles := t.cycles + n }

/-! ### Whole-table rules -/

/-- A register is written only where the table's source or destination names it or a pair that contains it
(10_state.md R21); SP only where it is named, and never by an instruction that only reads it (R26). -/
def Obligations.OnlyNamedRegistersAreWritten : Prop :=
  ∀ (i : Instr) (s t : State), exec i s = .next t →
    (∀ r, i.names r = false → t.r8 r = s.r8 r) ∧
    (i.tuple.destination ≠ .reg .sp → t.sp = s.sp)

/-- The flag table of 10_state.md R30: `-` keeps the flag, `0` and `1` force it. (What `*` computes is in the statements of the
instructions.) -/
def Obligations.FlagsFollowTheEffectTable : Prop :=
  ∀ (i : Instr) (s t : State), exec i s = .next t →
    match i.tuple.kind, i.tuple.mode with
    | .ld, _ | .jr, _ | .nop, _ | .stop, _ => t.f = s.f
    | .add, _ => t.f.z = s.f.z ∧ t.f.n = false
    | .inc, .pair | .dec, .pair => t.f = s.f
    | .inc, _ => t.f.n = false ∧ t.f.c = s.f.c
    | .dec, _ => t.f.n = true ∧ t.f.c = s.f.c
    | .daa, _ => t.f.n = s.f.n ∧ t.f.h = false
    | .cpl, _ => t.f.z = s.f.z ∧ t.f.n = false ∧ t.f.h = false ∧ t.f.c = s.f.c
    | .scf, _ => t.f.z = s.f.z ∧ t.f.n = s.f.n ∧ t.f.h = s.f.h ∧ t.f.c = true
    | .rlca, _ | .rrca, _ | .rla, _ | .rra, _ => t.f.z = false ∧ t.f.n = false ∧ t.f.h = false

/-- No load writes a flag, and none reads one: with other flags before it, a load does the same and leaves those
(41_loads.md R163, its first and second sentence; the third: log 23). -/
def Obligations.LoadsNeitherWriteNorReadFlags : Prop :=
  ∀ (i : Instr) (s t : State) (g : Flags), i.tuple.kind = .ld → exec i s = .next t →
    t.f = s.f ∧ exec i { s with f := g } = .next { t with f := g }

/-! ### Registers and flags as the driver sees them -/

/-- 10_state.md R24: a pair is the view `(high << 8) | low`; a write puts bits 15 to 8 in the first-named register and bits 7
to 0 in the second, both at once and nothing else; the value is masked to 16 bits first; splitting what was combined gives
the halves back. -/
def Obligations.PairsAreViewsOfTheirHalves : Prop :=
  (∀ s : State,
    s.getRegister .bc = 256 * s.getRegister .b + s.getRegister .c ∧
    s.getRegister .de = 256 * s.getRegister .d + s.getRegister .e ∧
    s.getRegister .hl = 256 * s.getRegister .h + s.getRegister .l ∧
    s.getRegister .af = 256 * s.getRegister .a + s.getRegister .f) ∧
  (∀ (s : State) (v : Word),
    s.setR16 .bc v = { s with b := BitVec.ofNat 8 (v.toNat / 256), c := BitVec.ofNat 8 v.toNat } ∧
    s.setR16 .de v = { s with d := BitVec.ofNat 8 (v.toNat / 256), e := BitVec.ofNat 8 v.toNat } ∧
    s.setR16 .hl v = { s with h := BitVec.ofNat 8 (v.toNat / 256), l := BitVec.ofNat 8 v.toNat } ∧
    s.setRegister v.toNat .af = { s with
      a := BitVec.ofNat 8 (v.toNat / 256), f := Flags.ofByte (BitVec.ofNat 8 v.toNat) }) ∧
  (∀ (s : State) (v : Int) (r : RegisterType), r ∈ [.af, .bc, .de, .hl] →
    s.setRegister v r = s.setRegister (v % 2 ^ 16) r) ∧
  ∀ h l : Byte, highByte (combine h l) = h ∧ lowByte (combine h l) = l

/-- The low nibble of F, and so of AF, reads 0 after any writes (10_state.md R22, R25); a write of F keeps its top nibble. The
places of the flags are PRESUMED by the spec (92_eei_decisions.md D4): log 9. -/
def Obligations.FlagRegisterLowNibbleReadsZero : Prop :=
  (∀ s : State, s.getRegister .f % 16 = 0 ∧ s.getRegister .af % 16 = 0) ∧
  (∀ f : Flags, f.toByte.toNat =
    128 * f.z.toNat + 64 * f.n.toNat + 32 * f.h.toNat + 16 * f.c.toNat) ∧
  (∀ v : Byte, (Flags.ofByte v).toByte.toNat = v.toNat / 16 * 16) ∧
  ∀ f : Flags, Flags.ofByte f.toByte = f

/-- 10_state.md R31: a flag getter answers one flag; a setter writes one flag and leaves the other three and the low nibble, and
everything else. -/
def Obligations.FlagSetterWritesOneFlag : Prop :=
  (∀ s : State, s.getFlag .z = s.f.z ∧ s.getFlag .n = s.f.n ∧ s.getFlag .h = s.f.h ∧ s.getFlag .c = s.f.c) ∧
  ∀ (s : State) (which : Flag) (v : Bool),
    (s.setFlag which v).getFlag which = v ∧
    (∀ other, other ≠ which → (s.setFlag which v).getFlag other = s.getFlag other) ∧
    (s.setFlag which v).getRegister .f % 16 = s.getRegister .f % 16 ∧
    s.setFlag which v = { s with f := (s.setFlag which v).f }

/-- 10_state.md R27: the register cell's helpers wrap at the 8-bit boundary, and `raw()` is the two's-complement view. -/
def Obligations.RegisterCellHelpersWrap : Prop :=
  (∀ v : Byte, (incrementValue v).toNat = (v.toNat + 1) % 256) ∧
  (∀ v : Byte, (decrementValue v).toNat = (v.toNat + 255) % 256) ∧
  ∀ v : Byte, rawSigned v = if v.toNat < 0x80 then (v.toNat : Int) else (v.toNat : Int) - 0x100

/-- A driver's register write is read back masked to the register's width, the low nibble of F dropped, and costs no
cycle (60_exceptions.md R318, 10_state.md R21, R24 to R28); SP, PC, memory and control are otherwise as before. -/
def Obligations.DriverRegisterWriteReadsBackMasked : Prop :=
  ∀ (s : State) (v : Int) (r : RegisterType),
    let t := s.setRegister v r
    ((t.getRegister r : Int) = match r with
      | .a | .b | .c | .d | .e | .h | .l => v % 2 ^ 8
      | .f => v % 2 ^ 8 / 16 * 16
      | .af => v % 2 ^ 16 / 16 * 16
      | .bc | .de | .hl | .sp | .pc => v % 2 ^ 16) ∧
    (∀ q, r.covers q = false → t.r8 q = s.r8 q) ∧
    (r ≠ .f → r ≠ .af → t.f = s.f) ∧ (r ≠ .sp → t.sp = s.sp) ∧ (r ≠ .pc → t.pc = s.pc) ∧
    t.cycles = s.cycles ∧ SameMemory s t ∧ SameControl s t

/-- The CPU's pass-through accesses cost one cycle and the bus's own none; both are the routed access. A write stores `v[7:0]`, in a
buffer at its address alone; no register changes, and no cartridge that is ROM-only (20_memory.md R63, R68, R76, 60_exceptions.md
R318). That a driver's failing access is recorded in the core's fault record is the model's deduction, log 18, over an earlier record
its choice, log 28, and whether the CPU's counts is free, log 6; the unbounded address and the 8-bit data port are the spec's decision
D21: log 10. -/
def Obligations.PassThroughCostsOneCycle : Prop :=
  (∀ (s : State) (addr : Int) (v : Byte), busRead s addr = some v →
    cpuReadByte s addr = .ok (v, { s with cycles := s.cycles + 1 }) ∧ busReadByte s addr = .ok v) ∧
  (∀ (s : State) (v addr : Int), InMap addr → ∃ t, busWrite s addr (BitVec.ofInt 8 v) = some t ∧
    busWriteByte s v addr = .ok t ∧ cpuWriteByte s v addr = .ok { t with cycles := s.cycles + 1 } ∧
    (s.Inv → InBuffers addr → busRead t addr = some (BitVec.ofInt 8 v)) ∧
    SameMemoryExcept s t [addr] ∧ SameR8Except s t [] ∧ t.f = s.f ∧ t.sp = s.sp ∧ t.pc = s.pc ∧
    t.cycles = s.cycles ∧ SameControl s t) ∧
  ∀ (s : State) (v addr : Int), ¬InMap addr →
    (∃ f, cpuReadByte s addr = .error f ∧ FaultsWith s addr .read f) ∧
    (∃ f, cpuWriteByte s v addr = .error f ∧ FaultsWith s addr .write f) ∧
    busReadByte s addr = .error (.addressError addr .read { s with fault := some (.addressError addr .read) }) ∧
    busWriteByte s v addr = .error (.addressError addr .write { s with fault := some (.addressError addr .write) })

/-- "The host cannot clear `halted`, cannot set `cycles`, and cannot clear a fault through this surface"
(60_exceptions.md R318): so for a call that completes, and it keeps the invariant. A call that fails records its `AddressError`, the
model's deduction, log 18, over an earlier record its choice, log 28; it changes nothing else, but for the cycle that is free, log 6. -/
def Obligations.DriverCallKeepsControlAndInvariant : Prop :=
  (∀ (call : DriverCall) (s t : State), driverCall call s = .ok t →
    t.halted = s.halted ∧ t.fault = s.fault ∧ t.jrCarryMode = s.jrCarryMode ∧
    (t.cycles = s.cycles ∨ t.cycles = s.cycles + 1) ∧ (s.Inv → t.Inv)) ∧
  ∀ (call : DriverCall) (s : State) (f : Fault), driverCall call s = .error f →
    (∃ addr dir, ¬InMap addr ∧ FaultsWith s addr dir f) ∧ (s.Inv → f.left.Inv)

/-! ### The bus -/

/-- The region table of 20_memory.md R60, both bounds inclusive. In the cartridge's range a read answers `cartRead` at the address as it
is, the byte of the image (R62, R66, R67; the cartridge as plain data is the model's choice, log 4, of the spec's open parameter, decision
D20); in a machine just built a buffer's byte is that of `BUS_INIT`, open by the spec's decision D19 (70_reset_and_hazards.md R343; a
buffer's byte under its bus address: log 20). -/
def Obligations.RouterFollowsTheRegionTable : Prop :=
  (∀ addr : Int,
    (route addr = some .rom ↔ 0x0000 ≤ addr ∧ addr ≤ 0x7FFF) ∧
    (route addr = some .vram ↔ 0x8000 ≤ addr ∧ addr ≤ 0x9FFF) ∧
    (route addr = some .eram ↔ 0xA000 ≤ addr ∧ addr ≤ 0xBFFF) ∧
    (route addr = some .wram0 ↔ 0xC000 ≤ addr ∧ addr ≤ 0xCFFF) ∧
    (route addr = some .wram1 ↔ 0xD000 ≤ addr ∧ addr ≤ 0xDFFF) ∧
    (route addr = some .echo ↔ 0xE000 ≤ addr ∧ addr ≤ 0xFDFF) ∧
    (route addr = some .oam ↔ 0xFE00 ≤ addr ∧ addr ≤ 0xFE9F) ∧
    (route addr = some .io ↔ 0xFF00 ≤ addr ∧ addr ≤ 0xFF7F) ∧
    (route addr = some .hram ↔ 0xFF80 ≤ addr ∧ addr ≤ 0xFFFE) ∧
    (route addr = some .ie ↔ addr = 0xFFFF)) ∧
  (∀ (s : State) (addr : Int), InCart addr →
    busRead s addr = some (Cart.read s.cart addr.toNat) ∧
    Cart.read s.cart addr.toNat = s.cart.image.read addr.toNat) ∧
  ∀ (mode : JrCarryMode) (busInit : Memory) (cart : Cart) (addr : Int), InBuffers addr →
    busRead (State.construct mode busInit cart) addr = some (busInit.read addr.toNat)

/-- Accesses fail exactly in the gap and outside 0x0000 to 0xFFFF, naming address and direction (20_memory.md R62 to R64; the
unbounded address is the spec's decision D21: log 10; what the fault leaves its decision D17: log 7). -/
def Obligations.AddressErrorExactlyOutsideTheMap : Prop :=
  ∀ (s : State) (addr : Int) (v : Byte),
    (busRead s addr = none ↔ (0xFEA0 ≤ addr ∧ addr ≤ 0xFEFF) ∨ 0xFFFF < addr ∨ addr < 0) ∧
    (busWrite s addr v = none ↔ (0xFEA0 ≤ addr ∧ addr ≤ 0xFEFF) ∨ 0xFFFF < addr ∨ addr < 0) ∧
    (busRead s addr = none →
      (∃ f, memRead s addr = .error f ∧ FaultsWith s addr .read f) ∧
      ∃ f, memWrite s addr v = .error f ∧ FaultsWith s addr .write f)

/-- 20_memory.md R65: a byte written to any buffer reads back, and keeps its value through a write to any other
address. -/
def Obligations.BufferBytesReadBackWhatWasWritten : Prop :=
  ∀ (s t : State) (addr : Int) (v : Byte), s.Inv → busWrite s addr v = some t →
    (InBuffers addr → busRead t addr = some v) ∧
    ∀ other, InBuffers other → other ≠ addr → busRead t other = busRead s other

/-- 20_memory.md R68: a write into the ROM range of a ROM-only cartridge leaves the cartridge's contents unchanged; it costs its cycle and
raises no fault. -/
def Obligations.RomOnlyCartridgeDiscardsWrites : Prop :=
  (∀ (s : State) (addr : Int) (v : Byte), s.cart.romOnly = true → InCart addr →
    busWrite s addr v = some s ∧ memWrite s addr v = .ok { s with cycles := s.cycles + 1 }) ∧
  ∀ s t : State, s.cart.romOnly = true → step s = .next t →
    t.cart = s.cart ∧ ∀ addr, InCart addr → busRead t addr = busRead s addr

/-- A store is seen by the very next fetch, with no fence (20_memory.md R86). -/
def Obligations.StoreIsSeenByTheNextFetch : Prop :=
  ∀ (s t : State) (v : Byte), s.Inv → InBuffers s.pc.toNat → memWrite s s.pc.toNat v = .ok t →
    fetchByte t = .ok (v, t.fetched 1)

/-! ### Loads -/

/-- `LD r,d8` (41_loads.md R150). -/
def Obligations.LoadImmediateByte : Prop :=
  ∀ (r : R8) (d8 : Byte) (s : State), ∃ t, exec (Instr.loadImm8 r d8) s = .next t ∧
    t.r8 r = d8 ∧ SameR8Except s t [r] ∧ t.f = s.f ∧ t.sp = s.sp ∧ t.pc = s.pc ∧
    SameMemory s t ∧ SameControl s t ∧ StepCycles (Instr.loadImm8 r d8) s t 2

/-- `LD rr,d16` (41_loads.md R151): from the immediate bytes, the first the low byte (PRESUMED by the spec, 92_eei_decisions.md D3:
log 11). -/
def Obligations.LoadImmediateWord : Prop :=
  ∀ (p : R16) (b1 b2 : Byte) (s : State), ∃ t, exec (Instr.loadImm16 p (assemble16 b1 b2)) s = .next t ∧
    (t.r16 p).toNat = 256 * b2.toNat + b1.toNat ∧ SameR8Except s t p.halves ∧ (p ≠ .sp → t.sp = s.sp) ∧
    t.f = s.f ∧ t.pc = s.pc ∧ SameMemory s t ∧ SameControl s t ∧
    StepCycles (Instr.loadImm16 p (assemble16 b1 b2)) s t 3

/-- `LD r,r'`, the same register twice included, and `LD SP,HL` (41_loads.md R152, R153). -/
def Obligations.CopyBetweenRegisters : Prop :=
  (∀ (dst src : R8) (s : State), ∃ t, exec (Instr.loadReg dst src) s = .next t ∧
    t.r8 dst = s.r8 src ∧ SameR8Except s t [dst] ∧ t.f = s.f ∧ t.sp = s.sp ∧ t.pc = s.pc ∧
    SameMemory s t ∧ SameControl s t ∧ StepCycles (Instr.loadReg dst src) s t 1) ∧
  ∀ s : State, ∃ t, exec .ldSP_HL s = .next t ∧
    t.sp.toNat = 256 * s.h.toNat + s.l.toNat ∧ SameR8Except s t [] ∧ t.f = s.f ∧ t.pc = s.pc ∧
    SameMemory s t ∧ SameControl s t ∧ StepCycles .ldSP_HL s t 2

/-- `LD A,(BC)`, `LD A,(DE)`, `LD r,(HL)` (41_loads.md R154, R155, R156): where the pair's address is in the map, the register
receives the byte there; in the gap, `AddressError` and no register changes. What a fault leaves is the spec's decision D17: log 7. -/
def Obligations.LoadFromPairAddress : Prop :=
  let loads (i : Instr) (dst : R8) (p : R16) : Prop := ∀ s : State,
    (InMap (s.r16 p).toNat → ∃ t, exec i s = .next t ∧
      busRead s (s.r16 p).toNat = some (t.r8 dst) ∧ SameR8Except s t [dst] ∧ t.f = s.f ∧ t.sp = s.sp ∧ t.pc = s.pc ∧
      SameMemory s t ∧ SameControl s t ∧ StepCycles i s t 2) ∧
    (0xFEA0 ≤ (s.r16 p).toNat ∧ (s.r16 p).toNat ≤ 0xFEFF → ∃ f, exec i s = .fault f ∧
      FaultsWith s (s.r16 p).toNat .read f)
  loads .ldA_AtBC .a .bc ∧ loads .ldA_AtDE .a .de ∧ ∀ r, loads (Instr.loadAtHL r) r .hl

/-- `LD (BC),A`, `LD (DE),A`, `LD (HL),r` (41_loads.md R157, R158, R159): the byte stands at the pair's address and nowhere else;
a ROM-only cartridge discards it; in the gap, `AddressError` and nothing is written. What a fault leaves is the spec's decision D17:
log 7. -/
def Obligations.StoreToPairAddress : Prop :=
  let stores (i : Instr) (p : R16) (src : R8) : Prop := ∀ s : State, s.Inv →
    (InMap (s.r16 p).toNat → ∃ t, exec i s = .next t ∧
      (InBuffers (s.r16 p).toNat → busRead t (s.r16 p).toNat = some (s.r8 src)) ∧
      (InCart (s.r16 p).toNat → s.cart.romOnly = true → SameMemory s t) ∧
      SameMemoryExcept s t [(s.r16 p).toNat] ∧ SameR8Except s t [] ∧ t.f = s.f ∧ t.sp = s.sp ∧ t.pc = s.pc ∧
      SameControl s t ∧ StepCycles i s t 2) ∧
    (0xFEA0 ≤ (s.r16 p).toNat ∧ (s.r16 p).toNat ≤ 0xFEFF → ∃ f, exec i s = .fault f ∧
      FaultsWith s (s.r16 p).toNat .write f)
  stores .ldAtBC_A .bc .a ∧ stores .ldAtDE_A .de .a ∧ ∀ r, stores (Instr.storeAtHL r) .hl r

/-- `LD A,(HL+)` and `LD A,(HL-)` (41_loads.md R160, R161): A receives the byte at HL, then HL changes by one
modulo 2^16; in the gap neither changes. The total of 3 cycles is the spec's decision D14: log 12; what a fault leaves its decision D17: log 7. -/
def Obligations.LoadThenStepHl : Prop :=
  let loads (i : Instr) (delta : Nat) : Prop := ∀ s : State,
    (InMap (s.r16 .hl).toNat → ∃ t, exec i s = .next t ∧
      busRead s (s.r16 .hl).toNat = some t.a ∧ (t.r16 .hl).toNat = ((s.r16 .hl).toNat + delta) % 2 ^ 16 ∧
      SameR8Except s t [.a, .h, .l] ∧ t.f = s.f ∧ t.sp = s.sp ∧ t.pc = s.pc ∧
      SameMemory s t ∧ SameControl s t ∧ StepCycles i s t 3) ∧
    (0xFEA0 ≤ (s.r16 .hl).toNat ∧ (s.r16 .hl).toNat ≤ 0xFEFF → ∃ f, exec i s = .fault f ∧
      FaultsWith s (s.r16 .hl).toNat .read f)
  loads .ldA_AtHLInc 1 ∧ loads .ldA_AtHLDec 0xFFFF

/-- `LD (a16),SP` (41_loads.md R162) where both addresses are in the map: the low byte of SP at `a16`, the high byte at
`a16 + 1`, each in whatever region holds it. -/
def Obligations.StoreSpWritesLowThenHigh : Prop :=
  ∀ (a16 : Word) (s : State), s.Inv → InMap a16.toNat → InMap (a16.toNat + 1) →
    ∃ t, exec (.ldAtA16_SP a16) s = .next t ∧
      (InBuffers a16.toNat → busRead t a16.toNat = some (BitVec.ofNat 8 s.sp.toNat)) ∧
      (InBuffers (a16.toNat + 1) → busRead t (a16.toNat + 1) = some (BitVec.ofNat 8 (s.sp.toNat / 256))) ∧
      (InCart a16.toNat → InCart (a16.toNat + 1) → s.cart.romOnly = true → SameMemory s t) ∧
      SameMemoryExcept s t [a16.toNat, a16.toNat + 1] ∧ SameR8Except s t [] ∧ t.f = s.f ∧ t.sp = s.sp ∧
      t.pc = s.pc ∧ SameControl s t ∧ StepCycles (.ldAtA16_SP a16) s t 5

/-- `LD (a16),SP` where it fails (41_loads.md R162, 40_step_cycle.md R139): in the gap before anything is written; at 0xFE9F and 0xFFFF
on the second address, which does not wrap (the spec's decision D16: log 10), with the low byte written and staying written
(no rollback, its decision D17: log 7). -/
def Obligations.StoreSpFaultKeepsTheLowByte : Prop :=
  ∀ (a16 : Word) (s : State), s.Inv →
    (0xFEA0 ≤ a16.toNat ∧ a16.toNat ≤ 0xFEFF → ∃ f, exec (.ldAtA16_SP a16) s = .fault f ∧
      FaultsWith s a16.toNat .write f) ∧
    (a16.toNat = 0xFE9F ∨ a16.toNat = 0xFFFF → ∃ f u, exec (.ldAtA16_SP a16) s = .fault f ∧
      busWrite s a16.toNat (BitVec.ofNat 8 s.sp.toNat) = some u ∧
      FaultsWith { u with cycles := s.cycles + 1 } (a16.toNat + 1) .write f ∧
      busRead f.left a16.toNat = some (BitVec.ofNat 8 s.sp.toNat))

/-! ### Addition -/

/-- `ADD A,r` (42_add.md R200, R202). That A is the destination and that Z keeps its value are the spec's decision D5, the
half-carry its reading D6: logs 14, 16. -/
def Obligations.AddByteToA : Prop :=
  ∀ (r : R8) (s : State), ∃ t, exec (Instr.addA r) s = .next t ∧
    t.a.toNat = (s.a.toNat + (s.r8 r).toNat) % 2 ^ 8 ∧
    t.f = ⟨s.f.z, false, decide (16 ≤ s.a.toNat % 16 + (s.r8 r).toNat % 16),
      decide (0xFF < s.a.toNat + (s.r8 r).toNat)⟩ ∧
    SameR8Except s t [.a] ∧ t.sp = s.sp ∧ t.pc = s.pc ∧ SameMemory s t ∧ SameControl s t ∧
    StepCycles (Instr.addA r) s t 1

/-- `ADD HL,rr` (42_add.md R201, R202): the half-carry is the carry out of bit 7, the spec's reading D6: log 14. That Z keeps its value
is its decision D5: log 16; the cycle of the pair write its decision D13: log 12. -/
def Obligations.AddWordToHl : Prop :=
  ∀ (p : R16) (s : State), ∃ t, exec (Instr.addHL p) s = .next t ∧
    (t.r16 .hl).toNat = ((s.r16 .hl).toNat + (s.r16 p).toNat) % 2 ^ 16 ∧
    t.f = ⟨s.f.z, false, decide (256 ≤ (s.r16 .hl).toNat % 256 + (s.r16 p).toNat % 256),
      decide (0xFFFF < (s.r16 .hl).toNat + (s.r16 p).toNat)⟩ ∧
    SameR8Except s t [.h, .l] ∧ t.sp = s.sp ∧ t.pc = s.pc ∧ SameMemory s t ∧ SameControl s t ∧
    StepCycles (Instr.addHL p) s t 2

/-! ### Increment and decrement -/

/-- `INC r` and `DEC r` (43_incdec.md R210, R211). The half-carry expression is the spec's reading D7: log 14. -/
def Obligations.IncrementAndDecrementRegister : Prop :=
  (∀ (r : R8) (s : State), ∃ t, exec (Instr.incReg r) s = .next t ∧
    (t.r8 r).toNat = ((s.r8 r).toNat + 1) % 2 ^ 8 ∧
    t.f = ⟨decide ((t.r8 r).toNat = 0), false, decide ((s.r8 r).toNat % 16 = 15), s.f.c⟩ ∧
    SameR8Except s t [r] ∧ t.sp = s.sp ∧ t.pc = s.pc ∧ SameMemory s t ∧ SameControl s t ∧
    StepCycles (Instr.incReg r) s t 1) ∧
  ∀ (r : R8) (s : State), ∃ t, exec (Instr.decReg r) s = .next t ∧
    (t.r8 r).toNat = ((s.r8 r).toNat + 255) % 2 ^ 8 ∧
    t.f = ⟨decide ((t.r8 r).toNat = 0), true, decide ((s.r8 r).toNat % 16 = 0), s.f.c⟩ ∧
    SameR8Except s t [r] ∧ t.sp = s.sp ∧ t.pc = s.pc ∧ SameMemory s t ∧ SameControl s t ∧
    StepCycles (Instr.decReg r) s t 1

/-- `INC rr` and `DEC rr` (43_incdec.md R212, R213): modulo 2^16, no flag changes. The cycle of the pair write is the spec's decision
D13: log 12. -/
def Obligations.IncrementAndDecrementPair : Prop :=
  let steps (i : Instr) (p : R16) (delta : Nat) : Prop := ∀ s : State, ∃ t, exec i s = .next t ∧
    (t.r16 p).toNat = ((s.r16 p).toNat + delta) % 2 ^ 16 ∧ SameR8Except s t p.halves ∧
    (p ≠ .sp → t.sp = s.sp) ∧ t.f = s.f ∧ t.pc = s.pc ∧ SameMemory s t ∧ SameControl s t ∧ StepCycles i s t 2
  ∀ p, steps (Instr.incPair p) p 1 ∧ steps (Instr.decPair p) p 0xFFFF

/-- `INC (HL)` and `DEC (HL)` (43_incdec.md R214, R215): the byte at HL, and the flags from the result even
where a ROM-only cartridge discards the write; in the gap, `AddressError` from the read and nothing changes. The half-carry expression is the spec's reading D7: log 14; what a
fault leaves its decision D17: log 7. -/
def Obligations.IncrementAndDecrementByteAtHl : Prop :=
  let modifies (i : Instr) (delta : Nat) (n : Bool) (borrowNibble : Nat) : Prop := ∀ s : State, s.Inv →
    (∀ v, busRead s (s.r16 .hl).toNat = some v → ∃ t, exec i s = .next t ∧
      (InBuffers (s.r16 .hl).toNat →
        busRead t (s.r16 .hl).toNat = some (BitVec.ofNat 8 (v.toNat + delta))) ∧
      (InCart (s.r16 .hl).toNat → s.cart.romOnly = true → SameMemory s t) ∧
      SameMemoryExcept s t [(s.r16 .hl).toNat] ∧
      t.f = ⟨decide ((v.toNat + delta) % 2 ^ 8 = 0), n, decide (v.toNat % 16 = borrowNibble), s.f.c⟩ ∧
      SameR8Except s t [] ∧ t.sp = s.sp ∧ t.pc = s.pc ∧ SameControl s t ∧ StepCycles i s t 3) ∧
    (0xFEA0 ≤ (s.r16 .hl).toNat ∧ (s.r16 .hl).toNat ≤ 0xFEFF → ∃ f, exec i s = .fault f ∧
      FaultsWith s (s.r16 .hl).toNat .read f)
  modifies .incAtHL 1 false 15 ∧ modifies .decAtHL 255 true 0

/-! ### Accumulator and flag operations -/

/-- `DAA` (44_acc_flag_ops.md R230). That both tests look at A before the instruction is the spec's decision D8: log 15. -/
def Obligations.DecimalAdjust : Prop :=
  ∀ s : State,
    let low := if s.f.n then s.f.h else s.f.h || decide (0x09 < s.a.toNat % 16)
    let high := if s.f.n then s.f.c else s.f.c || decide (0x99 < s.a.toNat)
    let adj := 0x06 * low.toNat + 0x60 * high.toNat
    ∃ t, exec .daa s = .next t ∧
      t.a.toNat = (if s.f.n then s.a.toNat + 2 ^ 8 - adj else s.a.toNat + adj) % 2 ^ 8 ∧
      t.f = ⟨decide (t.a.toNat = 0), s.f.n, false, if s.f.n then s.f.c else high⟩ ∧
      SameR8Except s t [.a] ∧ t.sp = s.sp ∧ t.pc = s.pc ∧ SameMemory s t ∧ SameControl s t ∧
      StepCycles .daa s t 1

/-- Packed-BCD addition: after `ADD A,r` of two packed-BCD bytes, `DAA` leaves the packed-BCD sum modulo 100 and C says that
it passed 99 (42_add.md R200, 44_acc_flag_ops.md R230). It rests on the spec's half-carry reading D6, log 14, on A as the destination of
the add, its decision D5, log 16, and on its reading D8 of `DAA`, log 15. -/
def Obligations.DecimalAdjustAfterAddIsDecimalSum : Prop :=
  let bcd (x : Nat) : Nat := 16 * (x / 10) + x % 10
  ∀ (r : R8) (s u t : State) (x y : Nat), x < 100 → y < 100 →
    s.a.toNat = bcd x → (s.r8 r).toNat = bcd y →
    exec (Instr.addA r) s = .next u → exec .daa u = .next t →
      t.a.toNat = bcd ((x + y) % 100) ∧ t.f.c = decide (100 ≤ x + y)

/-- `CPL` and `SCF` (44_acc_flag_ops.md R231, R232): `CPL` clears N and H, `SCF` writes C alone (the spec's decisions D9, D10:
log 16). -/
def Obligations.ComplementAndSetCarry : Prop :=
  ∀ s : State,
    (∃ t, exec .cpl s = .next t ∧ t.a.toNat = 0xFF - s.a.toNat ∧ t.f = ⟨s.f.z, false, false, s.f.c⟩ ∧
      SameR8Except s t [.a] ∧ t.sp = s.sp ∧ t.pc = s.pc ∧ SameMemory s t ∧ SameControl s t ∧
      StepCycles .cpl s t 1) ∧
    ∃ t, exec .scf s = .next t ∧ t.f = ⟨s.f.z, s.f.n, s.f.h, true⟩ ∧
      SameR8Except s t [] ∧ t.sp = s.sp ∧ t.pc = s.pc ∧ SameMemory s t ∧ SameControl s t ∧
      StepCycles .scf s t 1

/-! ### Rotates -/

/-- `RLCA`, `RRCA`, `RLA`, `RRA` (45_rotates.md R240 to R243). Which mnemonic is which rotate is PRESUMED by the spec for the last
two: log 17. -/
def Obligations.RotatesOfA : Prop :=
  let rotates (i : Instr) (res : State → Nat) (out : State → Bool) : Prop := ∀ s : State,
    ∃ t, exec i s = .next t ∧ t.a.toNat = res s ∧ t.f = ⟨false, false, false, out s⟩ ∧
      SameR8Except s t [.a] ∧ t.sp = s.sp ∧ t.pc = s.pc ∧ SameMemory s t ∧ SameControl s t ∧ StepCycles i s t 1
  rotates .rlca (fun s => s.a.toNat * 2 % 256 + s.a.toNat / 128) (fun s => decide (128 ≤ s.a.toNat)) ∧
  rotates .rrca (fun s => s.a.toNat / 2 + 128 * (s.a.toNat % 2)) (fun s => decide (s.a.toNat % 2 = 1)) ∧
  rotates .rla (fun s => s.a.toNat * 2 % 256 + s.f.c.toNat) (fun s => decide (128 ≤ s.a.toNat)) ∧
  rotates .rra (fun s => s.a.toNat / 2 + 128 * s.f.c.toNat) (fun s => decide (s.a.toNat % 2 = 1))

/-- The laws of 45_rotates.md R244: the circular pair is inverse on A and eight of either restore A, with C the bit shifted out last
(90_conflicts.md C2); the pair through Carry is inverse on A and C and nine of either restore both. -/
def Obligations.RotateLaws : Prop :=
  (∀ s u t : State, exec .rlca s = .next u → exec .rrca u = .next t → t.a = s.a) ∧
  (∀ s u t : State, exec .rrca s = .next u → exec .rlca u = .next t → t.a = s.a) ∧
  (∀ s u t : State, exec .rla s = .next u → exec .rra u = .next t → t.a = s.a ∧ t.f.c = s.f.c) ∧
  (∀ s u t : State, exec .rra s = .next u → exec .rla u = .next t → t.a = s.a ∧ t.f.c = s.f.c) ∧
  (∀ s : State, ∃ t, execTimes 8 .rlca s = .next t ∧ t.a = s.a ∧ t.f.c = s.a.getLsbD 0) ∧
  (∀ s : State, ∃ t, execTimes 8 .rrca s = .next t ∧ t.a = s.a ∧ t.f.c = s.a.getLsbD 7) ∧
  (∀ s : State, ∃ t, execTimes 9 .rla s = .next t ∧ t.a = s.a ∧ t.f.c = s.f.c) ∧
  ∀ s : State, ∃ t, execTimes 9 .rra s = .next t ∧ t.a = s.a ∧ t.f.c = s.f.c

/-! ### Relative jumps -/

/-- 46_jumps.md R250: `JR e8`, opcode 0x18: the signed offset is added to `pc`, which is past the instruction, modulo 2^16; 3
cycles. -/
def Obligations.RelativeJump : Prop :=
  ∀ (e8 : Byte) (s : State), encode (.jr e8) = [0x18, e8] ∧
    ∃ t, exec (.jr e8) s = .next t ∧ (t.pc.toNat : Int) = (s.pc.toNat + e8.toInt) % 2 ^ 16 ∧
      t = { s with pc := t.pc, cycles := t.cycles } ∧ StepCycles (.jr e8) s t 3

/-- 46_jumps.md R251, R252: `JR NZ,e8` and `JR Z,e8`, taken with 3 cycles and not taken with 2. -/
def Obligations.ConditionalJumpOnZero : Prop :=
  let jumps (i : Byte → Instr) (taken : State → Bool) : Prop := ∀ (e8 : Byte) (s : State),
    (taken s = true → ∃ t, exec (i e8) s = .next t ∧
      (t.pc.toNat : Int) = (s.pc.toNat + e8.toInt) % 2 ^ 16 ∧
      t = { s with pc := t.pc, cycles := t.cycles } ∧ StepCycles (i e8) s t 3) ∧
    (taken s = false → exec (i e8) s = .next s ∧ StepCycles (i e8) s s 2)
  jumps .jrNZ (fun s => !s.f.z) ∧ jumps .jrZ (fun s => s.f.z)

/-- `JR NC,e8` and `JR C,e8` under `JR_CARRY_MODE = implemented` (46_jumps.md R253, R254; the parameter is open, the spec's decision
D11: log 3). -/
def Obligations.ConditionalJumpOnCarryWhenImplemented : Prop :=
  let jumps (i : Byte → Instr) (taken : State → Bool) : Prop := ∀ (e8 : Byte) (s : State),
    s.jrCarryMode = .implemented →
    (taken s = true → ∃ t, exec (i e8) s = .next t ∧
      (t.pc.toNat : Int) = (s.pc.toNat + e8.toInt) % 2 ^ 16 ∧
      t = { s with pc := t.pc, cycles := t.cycles } ∧ StepCycles (i e8) s t 3) ∧
    (taken s = false → exec (i e8) s = .next s ∧ StepCycles (i e8) s s 2)
  jumps .jrNC (fun s => !s.f.c) ∧ jumps .jrC (fun s => s.f.c)

/-- `JR NC,e8` and `JR C,e8` under `JR_CARRY_MODE = fault`: `ExecutionError`, always, whatever the flags, with nothing changed but the
record (46_jumps.md R253, R254, 60_exceptions.md R302; decision D11: log 3; the record: decision D17, log 7). -/
def Obligations.CarryJumpFaultsWhenUnsupported : Prop :=
  ∀ (e8 : Byte) (s : State), s.jrCarryMode = .fault →
    exec (.jrNC e8) s = .fault (.executionError .nc { s with fault := some (.executionError .nc) }) ∧
    exec (.jrC e8) s = .fault (.executionError .c { s with fault := some (.executionError .c) })

/-! ### Control -/

/-- `NOP` and `STOP` (47_control.md R270, R271): one changes nothing, the other `halted` alone. That `STOP` is one byte is the spec's
decision D12: log 24. The clause `step t = .refused .noStepHalted`: that no step is enabled on a halted core is the spec's decision
D18 (40_step_cycle.md R130 marks it), and that a call of `step` answers this as a refusal is the model's, DEDUCED: log 8. -/
def Obligations.NopAndStop : Prop :=
  ∀ s : State,
    (exec .nop s = .next s ∧ StepCycles .nop s s 1) ∧
    ∃ t, exec .stop s = .next t ∧ t = { s with halted := true } ∧ StepCycles .stop s t 1 ∧
      step t = .refused .noStepHalted
end

