-- ==== Sys2Proof/Laws/Memory.lean ====
section
/-! SUPPORT. The laws of memory: read after write, and that every operation keeps the canonical form. -/

namespace Sys2Proof

theorem Memory.wf_nil : Memory.wf [] := ⟨List.Pairwise.nil, fun _ h => nomatch h⟩

theorem Memory.wf_tail {x : Host.Cell} {m : Memory} (h : Memory.wf (x :: m)) : Memory.wf m :=
  ⟨(List.pairwise_cons.1 h.1).2, fun y hy => h.2 y (List.mem_cons_of_mem x hy)⟩

/-- Every cell after the first lies higher. -/
theorem Memory.wf_head {x : Host.Cell} {m : Memory} (h : Memory.wf (x :: m)) : ∀ y ∈ m, x.1 < y.1 :=
  (List.pairwise_cons.1 h.1).1

theorem Memory.wf_cons {x : Host.Cell} {m : Memory} (hm : Memory.wf m) (hx : x.2 ≠ Memory.unlisted)
    (hlt : ∀ y ∈ m, x.1 < y.1) : Memory.wf (x :: m) :=
  ⟨List.pairwise_cons.2 ⟨hlt, hm.1⟩, List.forall_mem_cons.2 ⟨hx, hm.2⟩⟩

/-- A cell of the memory after a write is the one written or was there before. -/
theorem Memory.mem_write {m : Memory} {addr : Nat} {v : Byte} {x : Host.Cell} (h : x ∈ m.write addr v) :
    x.1 = addr ∨ x ∈ m := by
  induction m with
  | nil =>
    simp only [Memory.write, Memory.put] at h
    split at h <;> simp_all
  | cons c m ih =>
    obtain ⟨k, w⟩ := c
    simp only [Memory.write, Memory.put] at h
    split at h
    · split at h
      · exact .inr h
      · rcases List.mem_cons.1 h with rfl | h
        · exact .inl rfl
        · exact .inr h
    · split at h
      · split at h
        · exact .inr (List.mem_cons_of_mem _ h)
        · rcases List.mem_cons.1 h with rfl | h
          · exact .inl rfl
          · exact .inr (List.mem_cons_of_mem _ h)
      · rcases List.mem_cons.1 h with rfl | h
        · exact .inr (by simp)
        · exact (ih h).imp id (List.mem_cons_of_mem _)

theorem Memory.put_wf {m : Memory} {addr : Nat} (v : Byte) (h : Memory.wf m) (hlt : ∀ y ∈ m, addr < y.1) :
    Memory.wf (Memory.put addr v m) := by
  unfold Memory.put
  split
  · exact h
  · exact Memory.wf_cons h (by assumption) hlt

/-- A write keeps the canonical form. -/
theorem Memory.write_wf {m : Memory} (addr : Nat) (v : Byte) (h : m.wf) : (m.write addr v).wf := by
  induction m with
  | nil => exact Memory.put_wf v Memory.wf_nil (by simp)
  | cons c m ih =>
    obtain ⟨k, w⟩ := c
    have hhead := Memory.wf_head h
    simp only [Memory.write]
    split
    · rename_i hlt
      refine Memory.put_wf v h fun y hy => ?_
      rcases List.mem_cons.1 hy with rfl | hy
      · exact hlt
      · exact Nat.lt_trans hlt (hhead y hy)
    · split
      · rename_i heq
        exact Memory.put_wf v (Memory.wf_tail h) (heq ▸ hhead)
      · refine Memory.wf_cons (ih (Memory.wf_tail h)) (h.2 (k, w) (by simp)) fun y hy => ?_
        rcases Memory.mem_write hy with hy | hy
        · simp only; omega
        · exact hhead y hy

/-- A memory built from cells is canonical. -/
theorem Memory.ofCells_wf (cells : List Host.Cell) : (Memory.ofCells cells).wf := by
  induction cells with
  | nil => exact Memory.wf_nil
  | cons c cells ih => exact Memory.write_wf c.1 c.2 ih

/-- A cell of a memory built from cells has the address of one of them. -/
theorem Memory.mem_ofCells {cells : List Host.Cell} {x : Host.Cell} (h : x ∈ Memory.ofCells cells) :
    ∃ y ∈ cells, x.1 = y.1 := by
  induction cells with
  | nil => simp [Memory.ofCells] at h
  | cons c cells ih =>
    rcases Memory.mem_write (m := Memory.ofCells cells) h with h | h
    · exact ⟨c, by simp, h⟩
    · obtain ⟨y, hy, hxy⟩ := ih h
      exact ⟨y, List.mem_cons_of_mem _ hy, hxy⟩

/-- An address below every listed one reads as unlisted. -/
theorem Memory.read_below {m : Memory} {addr : Nat} (h : ∀ y ∈ m, addr < y.1) :
    m.read addr = Memory.unlisted := by
  induction m with
  | nil => rfl
  | cons c m ih =>
    have : addr < c.1 := h c (by simp)
    simp only [Memory.read]
    rw [if_neg (by omega)]
    exact ih fun y hy => h y (List.mem_cons_of_mem _ hy)

theorem Memory.read_put_same {m : Memory} {addr : Nat} (v : Byte) (h : ∀ y ∈ m, addr < y.1) :
    (Memory.put addr v m).read addr = v := by
  unfold Memory.put
  split
  · rename_i hv; rw [hv]; exact Memory.read_below h
  · simp [Memory.read]

theorem Memory.read_put_other {m : Memory} {addr other : Nat} (v : Byte) (h : other ≠ addr) :
    (Memory.put addr v m).read other = m.read other := by
  unfold Memory.put
  split
  · rfl
  · simp [Memory.read, Ne.symm h]

/-- A read after a write to the same address answers the byte written. -/
theorem Memory.read_write_same {m : Memory} (addr : Nat) (v : Byte) (h : m.wf) :
    (m.write addr v).read addr = v := by
  induction m with
  | nil => exact Memory.read_put_same v (by simp)
  | cons c m ih =>
    obtain ⟨k, w⟩ := c
    have hhead := Memory.wf_head h
    simp only [Memory.write]
    split
    · rename_i hlt
      refine Memory.read_put_same v fun y hy => ?_
      rcases List.mem_cons.1 hy with rfl | hy
      · exact hlt
      · exact Nat.lt_trans hlt (hhead y hy)
    · split
      · rename_i heq
        exact Memory.read_put_same v (heq ▸ hhead)
      · simp only [Memory.read]
        rw [if_neg (by omega)]
        exact ih (Memory.wf_tail h)

/-- A write leaves every other address alone, in a memory of any form. -/
theorem Memory.read_write_other (m : Memory) {addr other : Nat} (v : Byte) (h : other ≠ addr) :
    (m.write addr v).read other = m.read other := by
  induction m with
  | nil => exact Memory.read_put_other v h
  | cons c m ih =>
    obtain ⟨k, w⟩ := c
    simp only [Memory.write]
    split
    · exact Memory.read_put_other v h
    · split
      · rename_i heq
        rw [Memory.read_put_other v h]
        simp only [Memory.read]
        rw [if_neg (by omega)]
      · simp only [Memory.read]
        split
        · rfl
        · exact ih

end Sys2Proof
end

