-- ==== Sys2Proof/Laws/State.lean ====
section
/-! SUPPORT. One lemma per field per update of State, so that no proof unfolds a record update. -/

namespace Sys2Proof.Machine

section
variable (s : State)

@[simp] theorem State.setFlags_f (v : Flags) : (s.setFlags v).f = v := rfl
@[simp] theorem State.setFlags_sp (v : Flags) : (s.setFlags v).sp = s.sp := rfl
@[simp] theorem State.setFlags_pc (v : Flags) : (s.setFlags v).pc = s.pc := rfl
@[simp] theorem State.setFlags_halted (v : Flags) : (s.setFlags v).halted = s.halted := rfl
@[simp] theorem State.setFlags_cycles (v : Flags) : (s.setFlags v).cycles = s.cycles := rfl
@[simp] theorem State.setFlags_mem (v : Flags) : (s.setFlags v).mem = s.mem := rfl
@[simp] theorem State.setFlags_cart (v : Flags) : (s.setFlags v).cart = s.cart := rfl
@[simp] theorem State.setFlags_fault (v : Flags) : (s.setFlags v).fault = s.fault := rfl
@[simp] theorem State.setFlags_jrCarryMode (v : Flags) : (s.setFlags v).jrCarryMode = s.jrCarryMode := rfl
@[simp] theorem State.setFlags_a (v : Flags) : (s.setFlags v).a = s.a := rfl
@[simp] theorem State.setFlags_b (v : Flags) : (s.setFlags v).b = s.b := rfl
@[simp] theorem State.setFlags_c (v : Flags) : (s.setFlags v).c = s.c := rfl
@[simp] theorem State.setFlags_d (v : Flags) : (s.setFlags v).d = s.d := rfl
@[simp] theorem State.setFlags_e (v : Flags) : (s.setFlags v).e = s.e := rfl
@[simp] theorem State.setFlags_h (v : Flags) : (s.setFlags v).h = s.h := rfl
@[simp] theorem State.setFlags_l (v : Flags) : (s.setFlags v).l = s.l := rfl
@[simp] theorem State.setFlags_r8 (v : Flags) (q : R8) : (s.setFlags v).r8 q = s.r8 q := by cases q <;> rfl
@[simp] theorem State.setFlags_r16 (v : Flags) (p : R16) : (s.setFlags v).r16 p = s.r16 p := by cases p <;> rfl

@[simp] theorem State.setPc_f (v : Word) : (s.setPc v).f = s.f := rfl
@[simp] theorem State.setPc_sp (v : Word) : (s.setPc v).sp = s.sp := rfl
@[simp] theorem State.setPc_pc (v : Word) : (s.setPc v).pc = v := rfl
@[simp] theorem State.setPc_halted (v : Word) : (s.setPc v).halted = s.halted := rfl
@[simp] theorem State.setPc_cycles (v : Word) : (s.setPc v).cycles = s.cycles := rfl
@[simp] theorem State.setPc_mem (v : Word) : (s.setPc v).mem = s.mem := rfl
@[simp] theorem State.setPc_cart (v : Word) : (s.setPc v).cart = s.cart := rfl
@[simp] theorem State.setPc_fault (v : Word) : (s.setPc v).fault = s.fault := rfl
@[simp] theorem State.setPc_jrCarryMode (v : Word) : (s.setPc v).jrCarryMode = s.jrCarryMode := rfl
@[simp] theorem State.setPc_a (v : Word) : (s.setPc v).a = s.a := rfl
@[simp] theorem State.setPc_b (v : Word) : (s.setPc v).b = s.b := rfl
@[simp] theorem State.setPc_c (v : Word) : (s.setPc v).c = s.c := rfl
@[simp] theorem State.setPc_d (v : Word) : (s.setPc v).d = s.d := rfl
@[simp] theorem State.setPc_e (v : Word) : (s.setPc v).e = s.e := rfl
@[simp] theorem State.setPc_h (v : Word) : (s.setPc v).h = s.h := rfl
@[simp] theorem State.setPc_l (v : Word) : (s.setPc v).l = s.l := rfl
@[simp] theorem State.setPc_r8 (v : Word) (q : R8) : (s.setPc v).r8 q = s.r8 q := by cases q <;> rfl
@[simp] theorem State.setPc_r16 (v : Word) (p : R16) : (s.setPc v).r16 p = s.r16 p := by cases p <;> rfl

@[simp] theorem State.tick_f (n : Nat) : (s.tick n).f = s.f := rfl
@[simp] theorem State.tick_sp (n : Nat) : (s.tick n).sp = s.sp := rfl
@[simp] theorem State.tick_pc (n : Nat) : (s.tick n).pc = s.pc := rfl
@[simp] theorem State.tick_halted (n : Nat) : (s.tick n).halted = s.halted := rfl
@[simp] theorem State.tick_cycles (n : Nat) : (s.tick n).cycles = s.cycles + BitVec.ofNat 64 n := rfl
@[simp] theorem State.tick_mem (n : Nat) : (s.tick n).mem = s.mem := rfl
@[simp] theorem State.tick_cart (n : Nat) : (s.tick n).cart = s.cart := rfl
@[simp] theorem State.tick_fault (n : Nat) : (s.tick n).fault = s.fault := rfl
@[simp] theorem State.tick_jrCarryMode (n : Nat) : (s.tick n).jrCarryMode = s.jrCarryMode := rfl
@[simp] theorem State.tick_a (n : Nat) : (s.tick n).a = s.a := rfl
@[simp] theorem State.tick_b (n : Nat) : (s.tick n).b = s.b := rfl
@[simp] theorem State.tick_c (n : Nat) : (s.tick n).c = s.c := rfl
@[simp] theorem State.tick_d (n : Nat) : (s.tick n).d = s.d := rfl
@[simp] theorem State.tick_e (n : Nat) : (s.tick n).e = s.e := rfl
@[simp] theorem State.tick_h (n : Nat) : (s.tick n).h = s.h := rfl
@[simp] theorem State.tick_l (n : Nat) : (s.tick n).l = s.l := rfl
@[simp] theorem State.tick_r8 (n : Nat) (q : R8) : (s.tick n).r8 q = s.r8 q := by cases q <;> rfl
@[simp] theorem State.tick_r16 (n : Nat) (p : R16) : (s.tick n).r16 p = s.r16 p := by cases p <;> rfl

@[simp] theorem State.halt_f : (s.halt).f = s.f := rfl
@[simp] theorem State.halt_sp : (s.halt).sp = s.sp := rfl
@[simp] theorem State.halt_pc : (s.halt).pc = s.pc := rfl
@[simp] theorem State.halt_halted : (s.halt).halted = true := rfl
@[simp] theorem State.halt_cycles : (s.halt).cycles = s.cycles := rfl
@[simp] theorem State.halt_mem : (s.halt).mem = s.mem := rfl
@[simp] theorem State.halt_cart : (s.halt).cart = s.cart := rfl
@[simp] theorem State.halt_fault : (s.halt).fault = s.fault := rfl
@[simp] theorem State.halt_jrCarryMode : (s.halt).jrCarryMode = s.jrCarryMode := rfl
@[simp] theorem State.halt_a : (s.halt).a = s.a := rfl
@[simp] theorem State.halt_b : (s.halt).b = s.b := rfl
@[simp] theorem State.halt_c : (s.halt).c = s.c := rfl
@[simp] theorem State.halt_d : (s.halt).d = s.d := rfl
@[simp] theorem State.halt_e : (s.halt).e = s.e := rfl
@[simp] theorem State.halt_h : (s.halt).h = s.h := rfl
@[simp] theorem State.halt_l : (s.halt).l = s.l := rfl
@[simp] theorem State.halt_r8 (q : R8) : (s.halt).r8 q = s.r8 q := by cases q <;> rfl
@[simp] theorem State.halt_r16 (p : R16) : (s.halt).r16 p = s.r16 p := by cases p <;> rfl

@[simp] theorem State.record_f (r : FaultRecord) : (s.record r).f = s.f := rfl
@[simp] theorem State.record_sp (r : FaultRecord) : (s.record r).sp = s.sp := rfl
@[simp] theorem State.record_pc (r : FaultRecord) : (s.record r).pc = s.pc := rfl
@[simp] theorem State.record_halted (r : FaultRecord) : (s.record r).halted = s.halted := rfl
@[simp] theorem State.record_cycles (r : FaultRecord) : (s.record r).cycles = s.cycles := rfl
@[simp] theorem State.record_mem (r : FaultRecord) : (s.record r).mem = s.mem := rfl
@[simp] theorem State.record_cart (r : FaultRecord) : (s.record r).cart = s.cart := rfl
@[simp] theorem State.record_fault (r : FaultRecord) : (s.record r).fault = some r := rfl
@[simp] theorem State.record_jrCarryMode (r : FaultRecord) : (s.record r).jrCarryMode = s.jrCarryMode := rfl
@[simp] theorem State.record_a (r : FaultRecord) : (s.record r).a = s.a := rfl
@[simp] theorem State.record_b (r : FaultRecord) : (s.record r).b = s.b := rfl
@[simp] theorem State.record_c (r : FaultRecord) : (s.record r).c = s.c := rfl
@[simp] theorem State.record_d (r : FaultRecord) : (s.record r).d = s.d := rfl
@[simp] theorem State.record_e (r : FaultRecord) : (s.record r).e = s.e := rfl
@[simp] theorem State.record_h (r : FaultRecord) : (s.record r).h = s.h := rfl
@[simp] theorem State.record_l (r : FaultRecord) : (s.record r).l = s.l := rfl
@[simp] theorem State.record_r8 (r : FaultRecord) (q : R8) : (s.record r).r8 q = s.r8 q := by cases q <;> rfl
@[simp] theorem State.record_r16 (r : FaultRecord) (p : R16) : (s.record r).r16 p = s.r16 p := by cases p <;> rfl

@[simp] theorem State.setR8_f (r : R8) (v : Byte) : (s.setR8 r v).f = s.f := by cases r <;> rfl
@[simp] theorem State.setR8_sp (r : R8) (v : Byte) : (s.setR8 r v).sp = s.sp := by cases r <;> rfl
@[simp] theorem State.setR8_pc (r : R8) (v : Byte) : (s.setR8 r v).pc = s.pc := by cases r <;> rfl
@[simp] theorem State.setR8_halted (r : R8) (v : Byte) : (s.setR8 r v).halted = s.halted := by cases r <;> rfl
@[simp] theorem State.setR8_cycles (r : R8) (v : Byte) : (s.setR8 r v).cycles = s.cycles := by cases r <;> rfl
@[simp] theorem State.setR8_mem (r : R8) (v : Byte) : (s.setR8 r v).mem = s.mem := by cases r <;> rfl
@[simp] theorem State.setR8_cart (r : R8) (v : Byte) : (s.setR8 r v).cart = s.cart := by cases r <;> rfl
@[simp] theorem State.setR8_fault (r : R8) (v : Byte) : (s.setR8 r v).fault = s.fault := by cases r <;> rfl
@[simp] theorem State.setR8_jrCarryMode (r : R8) (v : Byte) : (s.setR8 r v).jrCarryMode = s.jrCarryMode := by cases r <;> rfl

@[simp] theorem State.setR16_f (r : R16) (v : Word) : (s.setR16 r v).f = s.f := by cases r <;> rfl
@[simp] theorem State.setR16_pc (r : R16) (v : Word) : (s.setR16 r v).pc = s.pc := by cases r <;> rfl
@[simp] theorem State.setR16_halted (r : R16) (v : Word) : (s.setR16 r v).halted = s.halted := by cases r <;> rfl
@[simp] theorem State.setR16_cycles (r : R16) (v : Word) : (s.setR16 r v).cycles = s.cycles := by cases r <;> rfl
@[simp] theorem State.setR16_mem (r : R16) (v : Word) : (s.setR16 r v).mem = s.mem := by cases r <;> rfl
@[simp] theorem State.setR16_cart (r : R16) (v : Word) : (s.setR16 r v).cart = s.cart := by cases r <;> rfl
@[simp] theorem State.setR16_fault (r : R16) (v : Word) : (s.setR16 r v).fault = s.fault := by cases r <;> rfl
@[simp] theorem State.setR16_jrCarryMode (r : R16) (v : Word) : (s.setR16 r v).jrCarryMode = s.jrCarryMode := by cases r <;> rfl

/-- An 8-bit register after a write: the value if it is the one written, else as before. -/
theorem State.setR8_r8 (r q : R8) (v : Byte) : (s.setR8 r v).r8 q = if q = r then v else s.r8 q := by
  cases r <;> cases q <;> rfl

@[simp] theorem State.setR8_r8_same (r : R8) (v : Byte) : (s.setR8 r v).r8 r = v := by
  simp [State.setR8_r8]

theorem State.setR8_r8_other (r q : R8) (v : Byte) (h : q ≠ r) : (s.setR8 r v).r8 q = s.r8 q := by
  simp [State.setR8_r8, h]

theorem State.setR16_sp (p : R16) (v : Word) : (s.setR16 p v).sp = if p = .sp then v else s.sp := by
  cases p <;> rfl

theorem State.setR16_r8_other (p : R16) (v : Word) (q : R8) (h : q ∉ R16.halves p) :
    (s.setR16 p v).r8 q = s.r8 q := by
  cases p <;> cases q <;> first | rfl | simp [R16.halves] at h

theorem highByte_toNat (w : Word) : (highByte w).toNat = w.toNat / 256 := by
  have := w.isLt
  simp only [highByte, BitVec.extractLsb'_toNat, Nat.shiftRight_eq_div_pow]
  omega

theorem lowByte_toNat (w : Word) : (lowByte w).toNat = w.toNat % 256 := by
  simp [lowByte, BitVec.extractLsb'_toNat]

/-- A pair's value: 256 times the high register plus the low one. -/
theorem combine_toNat (x y : Byte) : (combine x y).toNat = 256 * x.toNat + y.toNat := by
  have hy := y.isLt
  have h : (combine x y).toNat = x.toNat <<< 8 ||| y.toNat := BitVec.toNat_append x y
  rw [h, ← Nat.shiftLeft_add_eq_or_of_lt (by omega), Nat.shiftLeft_eq]
  omega

/-- The round trip of 10_state.md R24, one way: combining the halves gives the value back. -/
@[simp] theorem combine_high_low (w : Word) : combine (highByte w) (lowByte w) = w := by
  apply BitVec.eq_of_toNat_eq
  rw [combine_toNat, highByte_toNat, lowByte_toNat]
  omega

/-- The round trip of 10_state.md R24, high half. -/
@[simp] theorem highByte_combine (x y : Byte) : highByte (combine x y) = x := by
  apply BitVec.eq_of_toNat_eq
  have := y.isLt
  rw [highByte_toNat, combine_toNat]
  omega

/-- The round trip of 10_state.md R24, low half. -/
@[simp] theorem lowByte_combine (x y : Byte) : lowByte (combine x y) = y := by
  apply BitVec.eq_of_toNat_eq
  have := y.isLt
  rw [lowByte_toNat, combine_toNat]
  omega

/-- The assembled immediate is the pair of its bytes, the second high (30_encoding.md R102). -/
theorem assemble16_eq_combine (b1 b2 : Byte) : assemble16 b1 b2 = combine b2 b1 := rfl

@[simp] theorem State.setR16_r16_same (p : R16) (v : Word) : (s.setR16 p v).r16 p = v := by
  cases p <;> simp [State.setR16, State.r16]

theorem State.setR16_r16_other (p q : R16) (v : Word) (h : q ≠ p) : (s.setR16 p v).r16 q = s.r16 q := by
  cases p <;> cases q <;> first | rfl | exact absurd rfl h

end

end Sys2Proof.Machine
end

