-- ==== Sys2Proof/Laws/Bus.lean ====
section
/-! SUPPORT. What the router, the cartridge port and the arbiter can do, said once for each. -/

namespace Sys2Proof.Machine

/-! ### Router -/

/-- The first-match search passes a row by exactly where the address is outside its bounds. -/
theorem find_region_cons (addr lo hi : Nat) (k : Region) (rest : List (Region × Nat × Nat)) :
    ((((k, lo, hi) :: rest).find? fun row => row.2.1 ≤ addr && addr ≤ row.2.2).map fun row => row.1) =
      if lo ≤ addr ∧ addr ≤ hi then some k
      else (rest.find? fun row => row.2.1 ≤ addr && addr ≤ row.2.2).map fun row => row.1 := by
  by_cases h : lo ≤ addr ∧ addr ≤ hi
  · rw [if_pos h, List.find?_cons_of_pos (by simpa using h)]
    rfl
  · rw [if_neg h, List.find?_cons_of_neg (by simpa using h)]

/-- The search as one chain of bounds: "a model may use any total function with the same graph" (20_memory.md R61). -/
theorem regionOf_eq (addr : Nat) : regionOf addr =
    if 0x0000 ≤ addr ∧ addr ≤ 0x7FFF then some .rom
    else if 0x8000 ≤ addr ∧ addr ≤ 0x9FFF then some .vram
    else if 0xA000 ≤ addr ∧ addr ≤ 0xBFFF then some .eram
    else if 0xC000 ≤ addr ∧ addr ≤ 0xCFFF then some .wram0
    else if 0xD000 ≤ addr ∧ addr ≤ 0xDFFF then some .wram1
    else if 0xE000 ≤ addr ∧ addr ≤ 0xFDFF then some .echo
    else if 0xFE00 ≤ addr ∧ addr ≤ 0xFE9F then some .oam
    else if 0xFF00 ≤ addr ∧ addr ≤ 0xFF7F then some .io
    else if 0xFF80 ≤ addr ∧ addr ≤ 0xFFFE then some .hram
    else if 0xFFFF ≤ addr ∧ addr ≤ 0xFFFF then some .ie
    else none := by
  simp only [regionOf, regionTable, find_region_cons, List.find?_nil, Option.map_none]

theorem route_cart {addr : Int} (h : InCart addr) : route addr = some .rom := by
  obtain ⟨h1, h2⟩ := h
  cases addr with
  | ofNat n => exact (regionOf_eq n).trans (if_pos (by simp only [Int.ofNat_eq_natCast] at *; omega))
  | negSucc n => omega

theorem route_buffer {addr : Int} (h : InBuffers addr) : ∃ k, route addr = some k ∧ k ≠ .rom := by
  obtain ⟨h1, h2, h3, h4⟩ := h
  cases addr with
  | ofNat n =>
    simp only [Int.ofNat_eq_natCast] at *
    have hr : route (n : Int) = regionOf n := rfl
    rw [hr, regionOf_eq, if_neg (by omega)]
    repeat' (first | exact ⟨_, rfl, by decide⟩ | split)
    omega
  | negSucc n => omega

theorem route_outside {addr : Int} (h : ¬InMap addr) : route addr = none := by
  simp only [InMap] at h
  cases addr with
  | ofNat n =>
    simp only [Int.ofNat_eq_natCast] at *
    have hr : route (n : Int) = regionOf n := rfl
    rw [hr, regionOf_eq]
    repeat (rw [if_neg (by omega)])
  | negSucc n => rfl

theorem inMap_cases {addr : Int} (h : InMap addr) : InCart addr ∨ InBuffers addr := by
  simp only [InMap, InCart, InBuffers] at *
  omega

/-! ### Reads -/

theorem busRead_cart {addr : Int} (s : State) (h : InCart addr) :
    busRead s addr = some (Cart.read s.cart addr.toNat) := by
  simp [busRead, route_cart h]

theorem busRead_buffer {addr : Int} (s : State) (h : InBuffers addr) :
    busRead s addr = some (s.mem.read addr.toNat) := by
  obtain ⟨k, hk, hrom⟩ := route_buffer h
  unfold busRead
  rw [hk]
  cases k <;> first | rfl | exact absurd rfl hrom

theorem busRead_outside {addr : Int} (s : State) (h : ¬InMap addr) : busRead s addr = none := by
  simp [busRead, route_outside h]

theorem busRead_isSome {addr : Int} (s : State) (h : InMap addr) : ∃ v, busRead s addr = some v := by
  rcases inMap_cases h with h | h
  · exact ⟨_, busRead_cart s h⟩
  · exact ⟨_, busRead_buffer s h⟩

/-- A read answers exactly within the map (20_memory.md R62, R64). -/
theorem inMap_of_busRead {s : State} {addr : Int} {v : Byte} (h : busRead s addr = some v) : InMap addr := by
  by_contra hn
  simp [busRead_outside s hn] at h

theorem busRead_none_iff (s : State) (addr : Int) : busRead s addr = none ↔ ¬InMap addr := by
  constructor
  · intro h hm
    obtain ⟨v, hv⟩ := busRead_isSome s hm
    simp [h] at hv
  · exact busRead_outside s

/-- What a read answers depends on the memory and the cartridge alone. -/
theorem busRead_congr {s t : State} (hm : t.mem = s.mem) (hc : t.cart = s.cart) (addr : Int) :
    busRead t addr = busRead s addr := by
  simp only [busRead, hm, hc]

section
variable (s : State) (addr : Int)

@[simp] theorem busRead_setR8 (r : R8) (v : Byte) : busRead (s.setR8 r v) addr = busRead s addr :=
  busRead_congr (by simp) (by simp) addr

@[simp] theorem busRead_setR16 (p : R16) (v : Word) : busRead (s.setR16 p v) addr = busRead s addr :=
  busRead_congr (by simp) (by simp) addr

@[simp] theorem busRead_setFlags (v : Flags) : busRead (s.setFlags v) addr = busRead s addr := rfl

@[simp] theorem busRead_setPc (v : Word) : busRead (s.setPc v) addr = busRead s addr := rfl

@[simp] theorem busRead_tick (n : Nat) : busRead (s.tick n) addr = busRead s addr := rfl

@[simp] theorem busRead_halt : busRead s.halt addr = busRead s addr := rfl

@[simp] theorem busRead_record (r : FaultRecord) : busRead (s.record r) addr = busRead s addr := rfl

end

/-! ### Writes -/

theorem busWrite_cart {addr : Int} (s : State) (v : Byte) (h : InCart addr) :
    busWrite s addr v = some { s with cart := Cart.write s.cart addr.toNat v } := by
  simp [busWrite, route_cart h]

theorem busWrite_buffer {addr : Int} (s : State) (v : Byte) (h : InBuffers addr) :
    busWrite s addr v = some { s with mem := s.mem.write addr.toNat v } := by
  obtain ⟨k, hk, hrom⟩ := route_buffer h
  unfold busWrite
  rw [hk]
  cases k <;> first | rfl | exact absurd rfl hrom

theorem busWrite_outside {addr : Int} (s : State) (v : Byte) (h : ¬InMap addr) : busWrite s addr v = none := by
  simp [busWrite, route_outside h]

theorem busWrite_none_iff (s : State) (addr : Int) (v : Byte) : busWrite s addr v = none ↔ ¬InMap addr := by
  constructor
  · intro h hm
    rcases inMap_cases hm with hc | hb
    · simp [busWrite_cart s v hc] at h
    · simp [busWrite_buffer s v hb] at h
  · exact busWrite_outside s v

/-- Everything a bus write can do (20_memory.md R63): one buffer byte, or the cartridge. -/
theorem busWrite_cases {s t : State} {addr : Int} {v : Byte} (h : busWrite s addr v = some t) :
    (InBuffers addr ∧ t = { s with mem := s.mem.write addr.toNat v }) ∨
    (InCart addr ∧ t = { s with cart := Cart.write s.cart addr.toNat v }) := by
  by_cases hm : InMap addr
  · rcases inMap_cases hm with hc | hb
    · rw [busWrite_cart s v hc] at h
      exact .inr ⟨hc, (Option.some.inj h).symm⟩
    · rw [busWrite_buffer s v hb] at h
      exact .inl ⟨hb, (Option.some.inj h).symm⟩
  · simp [busWrite_outside s v hm] at h

/-- A ROM-only cartridge discards every write (20_memory.md R68). -/
theorem cart_write_romOnly {cart : Cart} (h : cart.romOnly = true) (addr : Nat) (v : Byte) :
    Cart.write cart addr v = cart := by
  simp [Cart.write, h]

theorem cart_write_image_wf {cart : Cart} (addr : Nat) (v : Byte) (h : cart.image.wf) :
    (Cart.write cart addr v).image.wf := by
  unfold Cart.write
  split
  · exact h
  · exact Memory.ofCells_wf _

theorem cart_write_image_inCart {cart : Cart} (addr : Nat) (v : Byte) (h : ∀ x ∈ cart.image, InCart x.1) :
    ∀ x ∈ (Cart.write cart addr v).image, InCart x.1 := by
  unfold Cart.write
  split
  · exact h
  · intro x hx
    obtain ⟨y, hy, hxy⟩ := Memory.mem_ofCells hx
    have hlt := (List.mem_filter.1 hy).2
    simp only [decide_eq_true_eq] at hlt
    rw [hxy]
    simp only [InCart]
    omega

/-- The invariant looks at memory and cartridge alone. -/
theorem inv_congr {s t : State} (hm : t.mem = s.mem) (hc : t.cart = s.cart) : t.Inv ↔ s.Inv := by
  simp only [State.Inv, hm, hc]

theorem busWrite_inv {s t : State} {addr : Int} {v : Byte} (hi : s.Inv) (h : busWrite s addr v = some t) :
    t.Inv := by
  obtain ⟨h1, h2, h3, h4⟩ := hi
  rcases busWrite_cases h with ⟨hb, rfl⟩ | ⟨hc, rfl⟩
  · refine ⟨Memory.write_wf _ _ h1, fun x hx => ?_, h3, h4⟩
    rcases Memory.mem_write hx with hx | hx
    · rw [hx, Int.toNat_of_nonneg hb.2.1]
      exact hb
    · exact h2 x hx
  · exact ⟨h1, h2, cart_write_image_wf _ _ h3, cart_write_image_inCart _ _ h4⟩

/-! ### The arbiter's accesses -/

theorem memRead_ok {s : State} {addr : Int} {v : Byte} (h : busRead s addr = some v) :
    memRead s addr = .ok (v, s.tick 1) := by
  simp [memRead, h]

/-- Everything a CPU-side read can do. -/
theorem memRead_cases (s : State) (addr : Int) :
    (∃ v, busRead s addr = some v ∧ memRead s addr = .ok (v, s.tick 1)) ∨
    (¬InMap addr ∧ memRead s addr = .error (raise (.addressError addr .read) (s.atFailingAccess addr .read))) := by
  by_cases h : InMap addr
  · obtain ⟨v, hv⟩ := busRead_isSome s h
    exact .inl ⟨v, hv, memRead_ok hv⟩
  · exact .inr ⟨h, by simp [memRead, busRead_outside s h]⟩

theorem memRead_ok_iff {s t : State} {addr : Int} {v : Byte} :
    memRead s addr = .ok (v, t) ↔ busRead s addr = some v ∧ t = s.tick 1 := by
  constructor
  · intro h
    rcases memRead_cases s addr with ⟨w, hw, he⟩ | ⟨_, he⟩
    · rw [he] at h
      cases h
      exact ⟨hw, rfl⟩
    · rw [he] at h
      cases h
  · rintro ⟨h, rfl⟩
    exact memRead_ok h

/-- Everything a CPU-side write can do. -/
theorem memWrite_cases (s : State) (addr : Int) (v : Byte) :
    (InBuffers addr ∧ memWrite s addr v = .ok { s.tick 1 with mem := s.mem.write addr.toNat v }) ∨
    (InCart addr ∧ memWrite s addr v = .ok { s.tick 1 with cart := Cart.write s.cart addr.toNat v }) ∨
    (¬InMap addr ∧ memWrite s addr v =
      .error (raise (.addressError addr .write) (s.atFailingAccess addr .write))) := by
  by_cases h : InMap addr
  · rcases inMap_cases h with hc | hb
    · exact .inr (.inl ⟨hc, by simp [memWrite, busWrite_cart _ v hc]⟩)
    · exact .inl ⟨hb, by simp [memWrite, busWrite_buffer _ v hb]⟩
  · exact .inr (.inr ⟨h, by simp [memWrite, busWrite_outside _ v h]⟩)

/-- A CPU-side write that completes: one buffer byte or the cartridge, and one cycle. -/
theorem memWrite_ok_cases {s t : State} {addr : Int} {v : Byte} (h : memWrite s addr v = .ok t) :
    (InBuffers addr ∧ t = { s.tick 1 with mem := s.mem.write addr.toNat v }) ∨
    (InCart addr ∧ t = { s.tick 1 with cart := Cart.write s.cart addr.toNat v }) := by
  rcases memWrite_cases s addr v with ⟨hb, he⟩ | ⟨hc, he⟩ | ⟨_, he⟩ <;> rw [he] at h <;> cases h
  · exact .inl ⟨hb, rfl⟩
  · exact .inr ⟨hc, rfl⟩

theorem memWrite_inMap {s t : State} {addr : Int} {v : Byte} (h : memWrite s addr v = .ok t) : InMap addr := by
  rcases memWrite_ok_cases h with ⟨⟨_, hm⟩, _⟩ | ⟨⟨h0, h7⟩, _⟩
  · exact hm
  · simp only [InMap]
    omega

theorem memWrite_inv {s t : State} {addr : Int} {v : Byte} (hi : s.Inv) (h : memWrite s addr v = .ok t) : t.Inv := by
  rcases memWrite_ok_cases h with ⟨hb, rfl⟩ | ⟨hc, rfl⟩
  · exact busWrite_inv (s := s.tick 1) hi (busWrite_buffer _ v hb)
  · exact busWrite_inv (s := s.tick 1) hi (busWrite_cart _ v hc)

/-- What a completed CPU-side write leaves alone, and its one cycle. -/
structure WriteFrame (s t : State) : Prop where
  f : t.f = s.f
  sp : t.sp = s.sp
  pc : t.pc = s.pc
  halted : t.halted = s.halted
  fault : t.fault = s.fault
  jrCarryMode : t.jrCarryMode = s.jrCarryMode
  r8 : ∀ r, t.r8 r = s.r8 r
  cycles : t.cycles = s.cycles + 1
  romOnly : s.cart.romOnly = true → t.cart = s.cart

theorem memWrite_frame {s t : State} {addr : Int} {v : Byte} (h : memWrite s addr v = .ok t) : WriteFrame s t := by
  rcases memWrite_ok_cases h with ⟨_, rfl⟩ | ⟨_, rfl⟩
  · exact ⟨rfl, rfl, rfl, rfl, rfl, rfl, fun r => by cases r <;> rfl, rfl, fun _ => rfl⟩
  · exact ⟨rfl, rfl, rfl, rfl, rfl, rfl, fun r => by cases r <;> rfl, rfl, fun h => cart_write_romOnly h _ _⟩

/-- A byte written to a buffer reads back. -/
theorem memWrite_same {s t : State} {addr : Int} {v : Byte} (hi : s.mem.wf) (h : memWrite s addr v = .ok t)
    (hb : InBuffers addr) : busRead t addr = some v := by
  rcases memWrite_ok_cases h with ⟨_, rfl⟩ | ⟨hc, rfl⟩
  · rw [busRead_buffer _ hb]
    exact congrArg some (Memory.read_write_same _ _ hi)
  · have := hb.1
    have := hc.2
    omega

/-- A buffer's byte at another address is left alone. -/
theorem memWrite_other {s t : State} {addr other : Int} {v : Byte} (h : memWrite s addr v = .ok t)
    (ho : InBuffers other) (hne : other ≠ addr) : busRead t other = busRead s other := by
  rw [busRead_buffer _ ho, busRead_buffer _ ho]
  rcases memWrite_ok_cases h with ⟨hb, rfl⟩ | ⟨_, rfl⟩
  · have hne' : other.toNat ≠ addr.toNat := by
      have := ho.2.1
      have := hb.2.1
      omega
    exact congrArg some (Memory.read_write_other _ _ hne')
  · rfl

end Sys2Proof.Machine
end

