-- ==== Sys2Proof/Laws/Decode.lean ====
section
/-! SUPPORT. The opcode table against the encoder, row by row. -/

namespace Sys2Proof

/-- An entry agrees with the encoder: whatever its immediate bytes, its instruction is encoded as the opcode and as
many of those bytes as its mode asks for. -/
def OpcodeEntry.agrees (row : OpcodeEntry) : Prop :=
  ∀ b1 b2 : Byte, encode (row.2 b1 b2) = row.1 :: [b1, b2].take (immediateCount row.2) ∧
    (row.2 b1 b2).tuple.mode.immBytes = immediateCount row.2

theorem agrees_zero {op : Byte} {i : Instr} (h : encode i = [op]) (hm : i.tuple.mode.immBytes = 0) :
    OpcodeEntry.agrees (op, fun _ _ => i) := by
  intro b1 b2
  simp [immediateCount, h, hm]

theorem agrees_one {op : Byte} {i : Byte → Instr} (h : ∀ b, encode (i b) = [op, b])
    (hm : ∀ b, (i b).tuple.mode.immBytes = 1) : OpcodeEntry.agrees (op, fun b1 _ => i b1) := by
  intro b1 b2
  simp [immediateCount, h, hm]

theorem agrees_two {op : Byte} {i : Word → Instr} (h : ∀ w, encode (i w) = [op, lowByte w, highByte w])
    (hm : ∀ w, (i w).tuple.mode.immBytes = 2) :
    OpcodeEntry.agrees (op, fun b1 b2 => i (assemble16 b1 b2)) := by
  intro b1 b2
  simp [immediateCount, h, hm, Machine.assemble16_eq_combine]

/-- Every entry of the table agrees with the encoder. -/
theorem opcodeTable_agrees : ∀ row ∈ opcodeTable, OpcodeEntry.agrees row := by
  simp only [opcodeTable, List.forall_mem_append]
  refine ⟨⟨⟨⟨⟨⟨⟨⟨⟨?_, ?_⟩, ?_⟩, ?_⟩, ?_⟩, ?_⟩, ?_⟩, ?_⟩, ?_⟩, ?_⟩ <;>
    simp only [opcodeRow0x, opcodeRow1x, opcodeRow2x, opcodeRow3x, opcodeRow4x, opcodeRow5x, opcodeRow6x,
      opcodeRow7x, opcodeRow8x, opcodeRowFx, List.forall_mem_cons, List.not_mem_nil, false_imp_iff, implies_true,
      and_true] <;>
    (repeat' apply And.intro) <;>
    first
      | exact agrees_zero rfl rfl
      | exact agrees_one (fun _ => rfl) (fun _ => rfl)
      | exact agrees_two (fun _ => rfl) (fun _ => rfl)

/-- What a lookup finds is an entry of the table. -/
theorem lookup_mem {op : Byte} {build : Byte → Byte → Instr} (h : lookup op = some build) :
    (op, build) ∈ opcodeTable := by
  simp only [lookup, Option.map_eq_some_iff] at h
  obtain ⟨row, hrow, rfl⟩ := h
  have hop := List.find?_some hrow
  have : row.1 = op := by simpa using hop
  exact this ▸ List.mem_of_find?_eq_some hrow

/-- What a lookup finds is encoded with the opcode that was looked up. -/
theorem lookup_encode {op : Byte} {build : Byte → Byte → Instr} (h : lookup op = some build) (b1 b2 : Byte) :
    encode (build b1 b2) = op :: [b1, b2].take (immediateCount build) :=
  (opcodeTable_agrees _ (lookup_mem h) b1 b2).1

/-- The mode of what a lookup finds does not depend on the immediate bytes. -/
theorem lookup_immBytes {op : Byte} {build : Byte → Byte → Instr} (h : lookup op = some build) (b1 b2 : Byte) :
    (build b1 b2).tuple.mode.immBytes = immediateCount build :=
  (opcodeTable_agrees _ (lookup_mem h) b1 b2).2

/-- No mode asks for more than two immediate bytes (30_encoding.md R100). -/
theorem immBytes_le (m : AddrMode) : m.immBytes ≤ 2 := by cases m <;> decide

theorem immediateCount_le {op : Byte} {build : Byte → Byte → Instr} (h : lookup op = some build) :
    immediateCount build ≤ 2 := by
  rw [← lookup_immBytes h 0 0]
  exact immBytes_le _

/-! ### What an entry reads -/

/-- An entry reads no immediate byte beyond those its mode asks for. -/
def OpcodeEntry.readsItsImmediates (row : OpcodeEntry) : Prop :=
  ∀ a b a' b' : Byte, [a, b].take (immediateCount row.2) = [a', b'].take (immediateCount row.2) →
    row.2 a b = row.2 a' b'

theorem reads_zero (op : Byte) (i : Instr) : OpcodeEntry.readsItsImmediates (op, fun _ _ => i) :=
  fun _ _ _ _ _ => rfl

theorem reads_one (op : Byte) (i : Byte → Instr) (hm : (i 0).tuple.mode.immBytes = 1) :
    OpcodeEntry.readsItsImmediates (op, fun b1 _ => i b1) := by
  intro a b a' b' h
  simp only [immediateCount, hm, List.take, List.cons.injEq, and_true] at h
  exact congrArg i h

theorem reads_two (op : Byte) (i : Word → Instr) (hm : (i (assemble16 0 0)).tuple.mode.immBytes = 2) :
    OpcodeEntry.readsItsImmediates (op, fun b1 b2 => i (assemble16 b1 b2)) := by
  intro a b a' b' h
  simp only [immediateCount, hm, List.take, List.cons.injEq, and_true] at h
  simp only [h.1, h.2]

/-- Every entry of the table reads its own immediates alone. -/
theorem opcodeTable_reads : ∀ row ∈ opcodeTable, OpcodeEntry.readsItsImmediates row := by
  simp only [opcodeTable, List.forall_mem_append]
  refine ⟨⟨⟨⟨⟨⟨⟨⟨⟨?_, ?_⟩, ?_⟩, ?_⟩, ?_⟩, ?_⟩, ?_⟩, ?_⟩, ?_⟩, ?_⟩ <;>
    simp only [opcodeRow0x, opcodeRow1x, opcodeRow2x, opcodeRow3x, opcodeRow4x, opcodeRow5x, opcodeRow6x,
      opcodeRow7x, opcodeRow8x, opcodeRowFx, List.forall_mem_cons, List.not_mem_nil, false_imp_iff, implies_true,
      and_true] <;>
    (repeat' apply And.intro) <;>
    first
      | exact reads_zero _ _
      | exact reads_one _ _ rfl
      | exact reads_two _ _ rfl

theorem lookup_build_congr {op : Byte} {build : Byte → Byte → Instr} (h : lookup op = some build)
    {a b a' b' : Byte} (hc : [a, b].take (immediateCount build) = [a', b'].take (immediateCount build)) :
    build a b = build a' b' :=
  opcodeTable_reads _ (lookup_mem h) a b a' b' hc

theorem length_eq_immBytes (m : AddrMode) : m.format.length = m.immBytes + 1 := by cases m <;> rfl

end Sys2Proof
end

