-- ==== Sys2Proof/Laws/Exec.lean ====
section
/-! SUPPORT. The 131 meanings as 26 shared bodies, so that a fact about `exec` is a case per body; and, for each body that reaches
the bus or tests a condition, everything it can do. -/

namespace Sys2Proof.Machine

/-! ### Bodies -/

/-- The operation bodies of files 41 to 47 with their operands. -/
inductive Body where
  | imm8 (r : R8) (d8 : Byte)
  | imm16 (p : R16) (d16 : Word)
  | reg (dst src : R8)
  | pair (dst src : R16)
  | fromPair (dst : R8) (p : R16)
  | toPair (p : R16) (src : R8)
  | stepHL (delta : Word)
  | storeSP (a16 : Word)
  | addA (src : R8)
  | addHL (src : R16)
  | incR (r : R8)
  | decR (r : R8)
  | incP (p : R16)
  | decP (p : R16)
  | incAtHL
  | decAtHL
  | daa
  | cpl
  | scf
  | rlca
  | rrca
  | rla
  | rra
  | jump (cond : Option Cond) (e8 : Byte)
  | nop
  | stop

/-- The shared operation a body is. -/
def Body.run : Body → State → Out
  | .imm8 r d8, s => loadImm8 r d8 s
  | .imm16 p d16, s => loadImm16 p d16 s
  | .reg dst src, s => loadReg dst src s
  | .pair dst src, s => loadPair dst src s
  | .fromPair dst p, s => loadFromPair dst p s
  | .toPair p src, s => storeToPair p src s
  | .stepHL delta, s => loadThenStepHL delta s
  | .storeSP a16, s => storeWord s.sp a16 s
  | .addA src, s => addToA src s
  | .addHL src, s => addToHL src s
  | .incR r, s => incReg r s
  | .decR r, s => decReg r s
  | .incP p, s => incPair p s
  | .decP p, s => decPair p s
  | .incAtHL, s => modifyAtHL incrementValue inc8Flags s
  | .decAtHL, s => modifyAtHL decrementValue dec8Flags s
  | .daa, s => execDaa s
  | .cpl, s => execCpl s
  | .scf, s => execScf s
  | .rlca, s => execRlca s
  | .rrca, s => execRrca s
  | .rla, s => execRla s
  | .rra, s => execRra s
  | .jump cond e8, s => jumpRelative cond e8 s
  | .nop, s => execNop s
  | .stop, s => execStop s

/-- The body of each instruction. -/
def bodyOf : Instr → Body
  | .nop => .nop
  | .ldBC_d16 d16 => .imm16 .bc d16
  | .ldAtBC_A => .toPair .bc .a
  | .incBC => .incP .bc
  | .incB => .incR .b
  | .decB => .decR .b
  | .ldB_d8 d8 => .imm8 .b d8
  | .rlca => .rlca
  | .ldAtA16_SP a16 => .storeSP a16
  | .addHL_BC => .addHL .bc
  | .ldA_AtBC => .fromPair .a .bc
  | .decBC => .decP .bc
  | .incC => .incR .c
  | .decC => .decR .c
  | .ldC_d8 d8 => .imm8 .c d8
  | .rrca => .rrca
  | .stop => .stop
  | .ldDE_d16 d16 => .imm16 .de d16
  | .ldAtDE_A => .toPair .de .a
  | .incDE => .incP .de
  | .incD => .incR .d
  | .decD => .decR .d
  | .ldD_d8 d8 => .imm8 .d d8
  | .rla => .rla
  | .jr e8 => .jump none e8
  | .addHL_DE => .addHL .de
  | .ldA_AtDE => .fromPair .a .de
  | .decDE => .decP .de
  | .incE => .incR .e
  | .decE => .decR .e
  | .ldE_d8 d8 => .imm8 .e d8
  | .rra => .rra
  | .jrNZ e8 => .jump (some .nz) e8
  | .ldHL_d16 d16 => .imm16 .hl d16
  | .incHL => .incP .hl
  | .incH => .incR .h
  | .decH => .decR .h
  | .ldH_d8 d8 => .imm8 .h d8
  | .daa => .daa
  | .jrZ e8 => .jump (some .z) e8
  | .addHL_HL => .addHL .hl
  | .ldA_AtHLInc => .stepHL 1
  | .decHL => .decP .hl
  | .incL => .incR .l
  | .decL => .decR .l
  | .ldL_d8 d8 => .imm8 .l d8
  | .cpl => .cpl
  | .jrNC e8 => .jump (some .nc) e8
  | .ldSP_d16 d16 => .imm16 .sp d16
  | .incSP => .incP .sp
  | .incAtHL => .incAtHL
  | .decAtHL => .decAtHL
  | .scf => .scf
  | .jrC e8 => .jump (some .c) e8
  | .addHL_SP => .addHL .sp
  | .ldA_AtHLDec => .stepHL (-1)
  | .decSP => .decP .sp
  | .incA => .incR .a
  | .decA => .decR .a
  | .ldA_d8 d8 => .imm8 .a d8
  | .ldB_B => .reg .b .b
  | .ldB_C => .reg .b .c
  | .ldB_D => .reg .b .d
  | .ldB_E => .reg .b .e
  | .ldB_H => .reg .b .h
  | .ldB_L => .reg .b .l
  | .ldB_AtHL => .fromPair .b .hl
  | .ldB_A => .reg .b .a
  | .ldC_B => .reg .c .b
  | .ldC_C => .reg .c .c
  | .ldC_D => .reg .c .d
  | .ldC_E => .reg .c .e
  | .ldC_H => .reg .c .h
  | .ldC_L => .reg .c .l
  | .ldC_AtHL => .fromPair .c .hl
  | .ldC_A => .reg .c .a
  | .ldD_B => .reg .d .b
  | .ldD_C => .reg .d .c
  | .ldD_D => .reg .d .d
  | .ldD_E => .reg .d .e
  | .ldD_H => .reg .d .h
  | .ldD_L => .reg .d .l
  | .ldD_AtHL => .fromPair .d .hl
  | .ldD_A => .reg .d .a
  | .ldE_B => .reg .e .b
  | .ldE_C => .reg .e .c
  | .ldE_D => .reg .e .d
  | .ldE_E => .reg .e .e
  | .ldE_H => .reg .e .h
  | .ldE_L => .reg .e .l
  | .ldE_AtHL => .fromPair .e .hl
  | .ldE_A => .reg .e .a
  | .ldH_B => .reg .h .b
  | .ldH_C => .reg .h .c
  | .ldH_D => .reg .h .d
  | .ldH_E => .reg .h .e
  | .ldH_H => .reg .h .h
  | .ldH_L => .reg .h .l
  | .ldH_AtHL => .fromPair .h .hl
  | .ldH_A => .reg .h .a
  | .ldL_B => .reg .l .b
  | .ldL_C => .reg .l .c
  | .ldL_D => .reg .l .d
  | .ldL_E => .reg .l .e
  | .ldL_H => .reg .l .h
  | .ldL_L => .reg .l .l
  | .ldL_AtHL => .fromPair .l .hl
  | .ldL_A => .reg .l .a
  | .ldAtHL_B => .toPair .hl .b
  | .ldAtHL_C => .toPair .hl .c
  | .ldAtHL_D => .toPair .hl .d
  | .ldAtHL_E => .toPair .hl .e
  | .ldAtHL_H => .toPair .hl .h
  | .ldAtHL_L => .toPair .hl .l
  | .ldAtHL_A => .toPair .hl .a
  | .ldA_B => .reg .a .b
  | .ldA_C => .reg .a .c
  | .ldA_D => .reg .a .d
  | .ldA_E => .reg .a .e
  | .ldA_H => .reg .a .h
  | .ldA_L => .reg .a .l
  | .ldA_AtHL => .fromPair .a .hl
  | .ldA_A => .reg .a .a
  | .addA_B => .addA .b
  | .addA_C => .addA .c
  | .addA_D => .addA .d
  | .addA_E => .addA .e
  | .addA_H => .addA .h
  | .addA_L => .addA .l
  | .addA_A => .addA .a
  | .ldSP_HL => .pair .sp .hl

/-- `exec` is the body of its instruction. -/
theorem exec_eq_run (i : Instr) (s : State) : exec i s = (bodyOf i).run s := by cases i <;> rfl

/-! ### What a body that reaches the bus can do -/

theorem loadFromPair_cases (dst : R8) (p : R16) (s : State) :
    (∃ v, busRead s (s.ea p) = some v ∧ loadFromPair dst p s = .next ((s.tick 1).setR8 dst v)) ∨
    (¬InMap (s.ea p) ∧ loadFromPair dst p s =
      .fault (raise (.addressError (s.ea p) .read) (s.atFailingAccess (s.ea p) .read))) := by
  rcases memRead_cases s (s.ea p) with ⟨v, hv, he⟩ | ⟨hn, he⟩
  · exact .inl ⟨v, hv, by simp [loadFromPair, he]⟩
  · exact .inr ⟨hn, by simp [loadFromPair, he]⟩

theorem loadThenStepHL_cases (delta : Word) (s : State) :
    (∃ v, busRead s (s.ea .hl) = some v ∧ loadThenStepHL delta s =
      .next ((((s.tick 1).setR8 .a v).setR16 .hl (s.r16 .hl + delta)).tick 1)) ∨
    (¬InMap (s.ea .hl) ∧ loadThenStepHL delta s =
      .fault (raise (.addressError (s.ea .hl) .read) (s.atFailingAccess (s.ea .hl) .read))) := by
  rcases memRead_cases s (s.ea .hl) with ⟨v, hv, he⟩ | ⟨hn, he⟩
  · exact .inl ⟨v, hv, by simp only [loadThenStepHL, he]; rfl⟩
  · exact .inr ⟨hn, by simp [loadThenStepHL, he]⟩

theorem storeToPair_cases (p : R16) (src : R8) (s : State) :
    (∃ t, memWrite s (s.ea p) (s.r8 src) = .ok t ∧ storeToPair p src s = .next t) ∨
    (¬InMap (s.ea p) ∧ storeToPair p src s =
      .fault (raise (.addressError (s.ea p) .write) (s.atFailingAccess (s.ea p) .write))) := by
  rcases memWrite_cases s (s.ea p) (s.r8 src) with ⟨_, he⟩ | ⟨_, he⟩ | ⟨hn, he⟩
  · exact .inl ⟨_, he, by simp [storeToPair, he]⟩
  · exact .inl ⟨_, he, by simp [storeToPair, he]⟩
  · exact .inr ⟨hn, by simp [storeToPair, he]⟩

/-- The 16-bit store: both bytes, or the low byte and a fault, or a fault (41_loads.md R162). -/
theorem storeWord_cases (v a16 : Word) (s : State) :
    (∃ t u, memWrite s (eaLow a16) (lowByte v) = .ok t ∧ memWrite t (eaHigh a16) (highByte v) = .ok u ∧
      storeWord v a16 s = .next u) ∨
    (∃ t, memWrite s (eaLow a16) (lowByte v) = .ok t ∧ ¬InMap (eaHigh a16) ∧ storeWord v a16 s =
      .fault (raise (.addressError (eaHigh a16) .write) (t.atFailingAccess (eaHigh a16) .write))) ∨
    (¬InMap (eaLow a16) ∧ storeWord v a16 s =
      .fault (raise (.addressError (eaLow a16) .write) (s.atFailingAccess (eaLow a16) .write))) := by
  have second : ∀ t, memWrite s (eaLow a16) (lowByte v) = .ok t →
      (∃ t u, memWrite s (eaLow a16) (lowByte v) = .ok t ∧ memWrite t (eaHigh a16) (highByte v) = .ok u ∧
        storeWord v a16 s = .next u) ∨
      (∃ t, memWrite s (eaLow a16) (lowByte v) = .ok t ∧ ¬InMap (eaHigh a16) ∧ storeWord v a16 s =
        .fault (raise (.addressError (eaHigh a16) .write) (t.atFailingAccess (eaHigh a16) .write))) := by
    intro t ht
    rcases memWrite_cases t (eaHigh a16) (highByte v) with ⟨_, he⟩ | ⟨_, he⟩ | ⟨hn, he⟩
    · exact .inl ⟨t, _, ht, he, by simp [storeWord, ht, he]⟩
    · exact .inl ⟨t, _, ht, he, by simp [storeWord, ht, he]⟩
    · exact .inr ⟨t, ht, hn, by simp [storeWord, ht, he]⟩
  rcases memWrite_cases s (eaLow a16) (lowByte v) with ⟨_, he⟩ | ⟨_, he⟩ | ⟨hn, he⟩
  · exact (second _ he).imp id .inl
  · exact (second _ he).imp id .inl
  · exact .inr (.inr ⟨hn, by simp [storeWord, he]⟩)

/-- The write of `INC (HL)` and `DEC (HL)` "cannot fault if the read did not" (43_incdec.md R214). -/
theorem modifyAtHL_cases (op : Byte → Byte) (flags : Flags → Byte → Byte → Flags) (s : State) :
    (∃ v t, busRead s (s.ea .hl) = some v ∧ memWrite (s.tick 1) (s.ea .hl) (op v) = .ok t ∧
      modifyAtHL op flags s = .next (t.setFlags (flags s.f v (op v)))) ∨
    (¬InMap (s.ea .hl) ∧ modifyAtHL op flags s =
      .fault (raise (.addressError (s.ea .hl) .read) (s.atFailingAccess (s.ea .hl) .read))) := by
  rcases memRead_cases s (s.ea .hl) with ⟨v, hv, he⟩ | ⟨hn, he⟩
  · rcases memWrite_cases (s.tick 1) (s.ea .hl) (op v) with ⟨_, hw⟩ | ⟨_, hw⟩ | ⟨hn, _⟩
    · exact .inl ⟨v, _, hv, hw, by simp [modifyAtHL, he, hw]⟩
    · exact .inl ⟨v, _, hv, hw, by simp [modifyAtHL, he, hw]⟩
    · exact absurd (inMap_of_busRead hv) hn
  · exact .inr ⟨hn, by simp [modifyAtHL, he]⟩

/-- A relative jump: taken, not taken, or the unsupported condition (46_jumps.md R255). -/
theorem jumpRelative_cases (cond : Option Cond) (e8 : Byte) (s : State) :
    (evalCond s.jrCarryMode s.f cond = .ok true ∧
      jumpRelative cond e8 s = .next ((s.setPc (jumpTarget s.pc e8)).tick 1)) ∨
    (evalCond s.jrCarryMode s.f cond = .ok false ∧ jumpRelative cond e8 s = .next s) ∨
    (∃ what, evalCond s.jrCarryMode s.f cond = .error what ∧
      jumpRelative cond e8 s = .fault (raise (.executionError what) s)) := by
  cases h : evalCond s.jrCarryMode s.f cond with
  | error what => exact .inr (.inr ⟨what, rfl, by simp [jumpRelative, h]⟩)
  | ok b =>
    cases b
    · exact .inr (.inl ⟨rfl, by simp [jumpRelative, h]⟩)
    · exact .inl ⟨rfl, by simp [jumpRelative, h]⟩

/-! ### Raising -/

@[simp] theorem raise_record (r : FaultRecord) (s : State) : (raise r s).record = r := by cases r <;> rfl

@[simp] theorem raise_left (r : FaultRecord) (s : State) : (raise r s).left = s.record r := by cases r <;> rfl

/-- The state at a failing access: `cycles` counts it or not, nothing else differs. -/
theorem atFailingAccess_cases (s : State) (addr : Int) (dir : AccessDir) :
    s.atFailingAccess addr dir = s.tick 1 ∨ s.atFailingAccess addr dir = s := by
  unfold State.atFailingAccess
  split
  · exact .inl rfl
  · exact .inr (by simp [State.tick])

/-- What a failing access raises is the fault of 60_exceptions.md R303 and leaves what R306 says. -/
theorem faultsWith_raise (s : State) (addr : Int) (dir : AccessDir) :
    FaultsWith s addr dir (raise (.addressError addr dir) (s.atFailingAccess addr dir)) := by
  refine ⟨(s.atFailingAccess addr dir).record (.addressError addr dir), rfl, ?_, ?_⟩ <;>
    rcases atFailingAccess_cases s addr dir with h | h <;> rw [h]
  · exact .inr rfl
  · exact .inl rfl
  · rfl
  · rfl

end Sys2Proof.Machine
end

