-- ==== Sys2Proof/Laws/Flags.lean ====
section
/-! SUPPORT. The flag computations in arithmetic terms. -/

namespace Sys2Proof.Machine

theorem low_nibble_toNat (x : Byte) : (x &&& 0x0F).toNat = x.toNat % 16 := by
  have h : (0x0F : Byte).toNat = 2 ^ 4 - 1 := by decide
  rw [BitVec.toNat_and, h, Nat.and_two_pow_sub_one_eq_mod]

theorem low_byte_toNat (x : Word) : (x &&& 0x00FF).toNat = x.toNat % 256 := by
  have h : (0x00FF : Word).toNat = 2 ^ 8 - 1 := by decide
  rw [BitVec.toNat_and, h, Nat.and_two_pow_sub_one_eq_mod]

/-- The half-carry of an 8-bit sum is a carry out of bit 3 (42_add.md R202). -/
theorem half8_testBit (x y : Byte) : (half8 x y).testBit 4 = decide (16 ≤ x.toNat % 16 + y.toNat % 16) := by
  have h : half8 x y = x.toNat % 16 + y.toNat % 16 := by simp only [half8, low_nibble_toNat]
  rw [h, Nat.testBit_eq_decide_div_mod_eq, decide_eq_decide]
  omega

/-- The half-carry of a 16-bit sum is a carry out of bit 7 (42_add.md R202). -/
theorem half16_testBit (x y : Word) :
    (half16 x y).testBit 8 = decide (256 ≤ x.toNat % 256 + y.toNat % 256) := by
  have h : half16 x y = x.toNat % 256 + y.toNat % 256 := by simp only [half16, low_byte_toNat]
  rw [h, Nat.testBit_eq_decide_div_mod_eq, decide_eq_decide]
  omega

theorem low_nibble_eq (x k : Byte) : (x &&& 0x0F == k) = decide (x.toNat % 16 = k.toNat) := by
  rw [Bool.eq_iff_iff, beq_iff_eq, decide_eq_true_eq, ← BitVec.toNat_inj, low_nibble_toNat]

theorem incrementValue_toNat (v : Byte) : (incrementValue v).toNat = (v.toNat + 1) % 256 := by
  simp [incrementValue, BitVec.toNat_add]

theorem decrementValue_toNat (v : Byte) : (decrementValue v).toNat = (v.toNat + 255) % 256 := by
  simp [decrementValue, BitVec.toNat_sub]
  omega

/-- `sext_16` is the signed view (00_scope.md R9, 30_encoding.md R102). -/
theorem sext16_toNat (v : Byte) :
    (sext16 v).toNat = if v.toNat < 0x80 then v.toNat else v.toNat + 0xFF00 := by
  have := v.isLt
  have h : (0xFF00 : Word).toNat = 0xFF00 := by decide
  unfold sext16
  split
  · rw [BitVec.toNat_setWidth]
    omega
  · rw [BitVec.toNat_add, BitVec.toNat_setWidth, h]
    omega

/-- The zero flag of an 8-bit result. -/
theorem eq_zero_flag (v : Byte) : (v == 0) = decide (v.toNat = 0) := by
  rw [Bool.eq_iff_iff, beq_iff_eq, decide_eq_true_eq, ← BitVec.toNat_inj]
  rfl

/-- The two corrections of `DAA` (44_acc_flag_ops.md R230), by the N branch. -/
theorem daaLow_eq (f : Flags) (x : Byte) :
    daaLow f x = if f.n then f.h else f.h || decide (0x09 < x.toNat % 16) := by
  unfold daaLow
  rw [low_nibble_toNat]
  cases f.n <;> simp

theorem daaHigh_eq (f : Flags) (x : Byte) :
    daaHigh f x = if f.n then f.c else f.c || decide (0x99 < x.toNat) := by
  unfold daaHigh
  cases f.n <;> simp

/-- `PC + sext_16(e8)` modulo 2^16 (46_jumps.md R250). -/
theorem jumpTarget_toNat (pc : Word) (e8 : Byte) :
    ((jumpTarget pc e8).toNat : Int) = (pc.toNat + e8.toInt) % 2 ^ 16 := by
  unfold jumpTarget
  rw [BitVec.toNat_add, sext16_toNat, BitVec.toInt_eq_toNat_cond]
  have := e8.isLt
  split <;> split <;> omega

end Sys2Proof.Machine
end

