-- ==== Sys2Proof/Laws/PerInstr.lean ====
section
/-! SUPPORT. The family `Shape`: every instruction stands in the opcode table under its own opcode, and its immediate bytes
build it. One lemma per constructor. -/

namespace Sys2Proof.Laws.Shape

/-- The opcode of `i` has a table entry, which builds `i` from `i`'s immediate bytes (30_encoding.md R103 to R105). -/
def Statement (i : Instr) : Prop :=
  ∃ build, lookup i.opcode = some build ∧ ∃ b1 b2, build b1 b2 = i

theorem of_no_immediate {i : Instr} (h : lookup i.opcode = some fun _ _ => i) : Statement i := ⟨_, h, 0, 0, rfl⟩

theorem of_byte {i : Byte → Instr} {d8 : Byte} (h : lookup (i d8).opcode = some fun b1 _ => i b1) :
    Statement (i d8) := ⟨_, h, d8, 0, rfl⟩

theorem of_word {i : Word → Instr} {d16 : Word}
    (h : lookup (i d16).opcode = some fun b1 b2 => i (assemble16 b1 b2)) : Statement (i d16) :=
  ⟨_, h, lowByte d16, highByte d16, congrArg i (Machine.combine_high_low d16)⟩

theorem nop : Statement .nop := of_no_immediate rfl
theorem ldBC_d16 (d16 : Word) : Statement (.ldBC_d16 d16) := of_word (i := .ldBC_d16) rfl
theorem ldAtBC_A : Statement .ldAtBC_A := of_no_immediate rfl
theorem incBC : Statement .incBC := of_no_immediate rfl
theorem incB : Statement .incB := of_no_immediate rfl
theorem decB : Statement .decB := of_no_immediate rfl
theorem ldB_d8 (d8 : Byte) : Statement (.ldB_d8 d8) := of_byte (i := .ldB_d8) rfl
theorem rlca : Statement .rlca := of_no_immediate rfl
theorem ldAtA16_SP (a16 : Word) : Statement (.ldAtA16_SP a16) := of_word (i := .ldAtA16_SP) rfl
theorem addHL_BC : Statement .addHL_BC := of_no_immediate rfl
theorem ldA_AtBC : Statement .ldA_AtBC := of_no_immediate rfl
theorem decBC : Statement .decBC := of_no_immediate rfl
theorem incC : Statement .incC := of_no_immediate rfl
theorem decC : Statement .decC := of_no_immediate rfl
theorem ldC_d8 (d8 : Byte) : Statement (.ldC_d8 d8) := of_byte (i := .ldC_d8) rfl
theorem rrca : Statement .rrca := of_no_immediate rfl
theorem stop : Statement .stop := of_no_immediate rfl
theorem ldDE_d16 (d16 : Word) : Statement (.ldDE_d16 d16) := of_word (i := .ldDE_d16) rfl
theorem ldAtDE_A : Statement .ldAtDE_A := of_no_immediate rfl
theorem incDE : Statement .incDE := of_no_immediate rfl
theorem incD : Statement .incD := of_no_immediate rfl
theorem decD : Statement .decD := of_no_immediate rfl
theorem ldD_d8 (d8 : Byte) : Statement (.ldD_d8 d8) := of_byte (i := .ldD_d8) rfl
theorem rla : Statement .rla := of_no_immediate rfl
theorem jr (e8 : Byte) : Statement (.jr e8) := of_byte (i := .jr) rfl
theorem addHL_DE : Statement .addHL_DE := of_no_immediate rfl
theorem ldA_AtDE : Statement .ldA_AtDE := of_no_immediate rfl
theorem decDE : Statement .decDE := of_no_immediate rfl
theorem incE : Statement .incE := of_no_immediate rfl
theorem decE : Statement .decE := of_no_immediate rfl
theorem ldE_d8 (d8 : Byte) : Statement (.ldE_d8 d8) := of_byte (i := .ldE_d8) rfl
theorem rra : Statement .rra := of_no_immediate rfl
theorem jrNZ (e8 : Byte) : Statement (.jrNZ e8) := of_byte (i := .jrNZ) rfl
theorem ldHL_d16 (d16 : Word) : Statement (.ldHL_d16 d16) := of_word (i := .ldHL_d16) rfl
theorem incHL : Statement .incHL := of_no_immediate rfl
theorem incH : Statement .incH := of_no_immediate rfl
theorem decH : Statement .decH := of_no_immediate rfl
theorem ldH_d8 (d8 : Byte) : Statement (.ldH_d8 d8) := of_byte (i := .ldH_d8) rfl
theorem daa : Statement .daa := of_no_immediate rfl
theorem jrZ (e8 : Byte) : Statement (.jrZ e8) := of_byte (i := .jrZ) rfl
theorem addHL_HL : Statement .addHL_HL := of_no_immediate rfl
theorem ldA_AtHLInc : Statement .ldA_AtHLInc := of_no_immediate rfl
theorem decHL : Statement .decHL := of_no_immediate rfl
theorem incL : Statement .incL := of_no_immediate rfl
theorem decL : Statement .decL := of_no_immediate rfl
theorem ldL_d8 (d8 : Byte) : Statement (.ldL_d8 d8) := of_byte (i := .ldL_d8) rfl
theorem cpl : Statement .cpl := of_no_immediate rfl
theorem jrNC (e8 : Byte) : Statement (.jrNC e8) := of_byte (i := .jrNC) rfl
theorem ldSP_d16 (d16 : Word) : Statement (.ldSP_d16 d16) := of_word (i := .ldSP_d16) rfl
theorem incSP : Statement .incSP := of_no_immediate rfl
theorem incAtHL : Statement .incAtHL := of_no_immediate rfl
theorem decAtHL : Statement .decAtHL := of_no_immediate rfl
theorem scf : Statement .scf := of_no_immediate rfl
theorem jrC (e8 : Byte) : Statement (.jrC e8) := of_byte (i := .jrC) rfl
theorem addHL_SP : Statement .addHL_SP := of_no_immediate rfl
theorem ldA_AtHLDec : Statement .ldA_AtHLDec := of_no_immediate rfl
theorem decSP : Statement .decSP := of_no_immediate rfl
theorem incA : Statement .incA := of_no_immediate rfl
theorem decA : Statement .decA := of_no_immediate rfl
theorem ldA_d8 (d8 : Byte) : Statement (.ldA_d8 d8) := of_byte (i := .ldA_d8) rfl
theorem ldB_B : Statement .ldB_B := of_no_immediate rfl
theorem ldB_C : Statement .ldB_C := of_no_immediate rfl
theorem ldB_D : Statement .ldB_D := of_no_immediate rfl
theorem ldB_E : Statement .ldB_E := of_no_immediate rfl
theorem ldB_H : Statement .ldB_H := of_no_immediate rfl
theorem ldB_L : Statement .ldB_L := of_no_immediate rfl
theorem ldB_AtHL : Statement .ldB_AtHL := of_no_immediate rfl
theorem ldB_A : Statement .ldB_A := of_no_immediate rfl
theorem ldC_B : Statement .ldC_B := of_no_immediate rfl
theorem ldC_C : Statement .ldC_C := of_no_immediate rfl
theorem ldC_D : Statement .ldC_D := of_no_immediate rfl
theorem ldC_E : Statement .ldC_E := of_no_immediate rfl
theorem ldC_H : Statement .ldC_H := of_no_immediate rfl
theorem ldC_L : Statement .ldC_L := of_no_immediate rfl
theorem ldC_AtHL : Statement .ldC_AtHL := of_no_immediate rfl
theorem ldC_A : Statement .ldC_A := of_no_immediate rfl
theorem ldD_B : Statement .ldD_B := of_no_immediate rfl
theorem ldD_C : Statement .ldD_C := of_no_immediate rfl
theorem ldD_D : Statement .ldD_D := of_no_immediate rfl
theorem ldD_E : Statement .ldD_E := of_no_immediate rfl
theorem ldD_H : Statement .ldD_H := of_no_immediate rfl
theorem ldD_L : Statement .ldD_L := of_no_immediate rfl
theorem ldD_AtHL : Statement .ldD_AtHL := of_no_immediate rfl
theorem ldD_A : Statement .ldD_A := of_no_immediate rfl
theorem ldE_B : Statement .ldE_B := of_no_immediate rfl
theorem ldE_C : Statement .ldE_C := of_no_immediate rfl
theorem ldE_D : Statement .ldE_D := of_no_immediate rfl
theorem ldE_E : Statement .ldE_E := of_no_immediate rfl
theorem ldE_H : Statement .ldE_H := of_no_immediate rfl
theorem ldE_L : Statement .ldE_L := of_no_immediate rfl
theorem ldE_AtHL : Statement .ldE_AtHL := of_no_immediate rfl
theorem ldE_A : Statement .ldE_A := of_no_immediate rfl
theorem ldH_B : Statement .ldH_B := of_no_immediate rfl
theorem ldH_C : Statement .ldH_C := of_no_immediate rfl
theorem ldH_D : Statement .ldH_D := of_no_immediate rfl
theorem ldH_E : Statement .ldH_E := of_no_immediate rfl
theorem ldH_H : Statement .ldH_H := of_no_immediate rfl
theorem ldH_L : Statement .ldH_L := of_no_immediate rfl
theorem ldH_AtHL : Statement .ldH_AtHL := of_no_immediate rfl
theorem ldH_A : Statement .ldH_A := of_no_immediate rfl
theorem ldL_B : Statement .ldL_B := of_no_immediate rfl
theorem ldL_C : Statement .ldL_C := of_no_immediate rfl
theorem ldL_D : Statement .ldL_D := of_no_immediate rfl
theorem ldL_E : Statement .ldL_E := of_no_immediate rfl
theorem ldL_H : Statement .ldL_H := of_no_immediate rfl
theorem ldL_L : Statement .ldL_L := of_no_immediate rfl
theorem ldL_AtHL : Statement .ldL_AtHL := of_no_immediate rfl
theorem ldL_A : Statement .ldL_A := of_no_immediate rfl
theorem ldAtHL_B : Statement .ldAtHL_B := of_no_immediate rfl
theorem ldAtHL_C : Statement .ldAtHL_C := of_no_immediate rfl
theorem ldAtHL_D : Statement .ldAtHL_D := of_no_immediate rfl
theorem ldAtHL_E : Statement .ldAtHL_E := of_no_immediate rfl
theorem ldAtHL_H : Statement .ldAtHL_H := of_no_immediate rfl
theorem ldAtHL_L : Statement .ldAtHL_L := of_no_immediate rfl
theorem ldAtHL_A : Statement .ldAtHL_A := of_no_immediate rfl
theorem ldA_B : Statement .ldA_B := of_no_immediate rfl
theorem ldA_C : Statement .ldA_C := of_no_immediate rfl
theorem ldA_D : Statement .ldA_D := of_no_immediate rfl
theorem ldA_E : Statement .ldA_E := of_no_immediate rfl
theorem ldA_H : Statement .ldA_H := of_no_immediate rfl
theorem ldA_L : Statement .ldA_L := of_no_immediate rfl
theorem ldA_AtHL : Statement .ldA_AtHL := of_no_immediate rfl
theorem ldA_A : Statement .ldA_A := of_no_immediate rfl
theorem addA_B : Statement .addA_B := of_no_immediate rfl
theorem addA_C : Statement .addA_C := of_no_immediate rfl
theorem addA_D : Statement .addA_D := of_no_immediate rfl
theorem addA_E : Statement .addA_E := of_no_immediate rfl
theorem addA_H : Statement .addA_H := of_no_immediate rfl
theorem addA_L : Statement .addA_L := of_no_immediate rfl
theorem addA_A : Statement .addA_A := of_no_immediate rfl
theorem ldSP_HL : Statement .ldSP_HL := of_no_immediate rfl

end Sys2Proof.Laws.Shape
end

