-- ==== Sys2Proof/Laws/Step.lean ====
section
/-! SUPPORT. What the fetch unit and the step can do, said once. -/

namespace Sys2Proof.Machine

/-- A step is enabled exactly where nothing refuses it (40_step_cycle.md R130). -/
theorem noStep_eq_none_iff (s : State) : s.noStep = none ↔ s.Enabled := by
  unfold State.noStep State.Enabled
  cases s.halted <;> cases s.fault <;> simp

/-- Everything the fetch of one byte can do (40_step_cycle.md R131). -/
theorem fetchByte_cases (s : State) :
    (∃ v, busRead s s.pc.toNat = some v ∧ fetchByte s = .ok (v, (s.tick 1).setPc (s.pc + 1))) ∨
    (¬InMap s.pc.toNat ∧ fetchByte s =
      .error (raise (.addressError s.pc.toNat .read) (s.atFailingAccess s.pc.toNat .read))) := by
  rcases memRead_cases s s.pc.toNat with ⟨v, hv, he⟩ | ⟨hn, he⟩
  · exact .inl ⟨v, hv, by simp [fetchByte, he]⟩
  · exact .inr ⟨hn, by simp [fetchByte, he]⟩

theorem fetchByte_ok {s : State} {v : Byte} (h : busRead s s.pc.toNat = some v) :
    fetchByte s = .ok (v, (s.tick 1).setPc (s.pc + 1)) := by
  simp [fetchByte, memRead_ok h]

theorem fetchByte_ok_iff {s t : State} {v : Byte} :
    fetchByte s = .ok (v, t) ↔ busRead s s.pc.toNat = some v ∧ t = (s.tick 1).setPc (s.pc + 1) := by
  constructor
  · intro h
    rcases fetchByte_cases s with ⟨w, hw, he⟩ | ⟨_, he⟩
    · rw [he] at h
      cases h
      exact ⟨hw, rfl⟩
    · rw [he] at h
      cases h
  · rintro ⟨h, rfl⟩
    exact fetchByte_ok h

@[simp] theorem State.fetched_pc (s : State) (n : Nat) : (s.fetched n).pc = s.pc + BitVec.ofNat 16 n := rfl
@[simp] theorem State.fetched_cycles (s : State) (n : Nat) : (s.fetched n).cycles = s.cycles + BitVec.ofNat 64 n := rfl
@[simp] theorem State.fetched_mem (s : State) (n : Nat) : (s.fetched n).mem = s.mem := rfl
@[simp] theorem State.fetched_cart (s : State) (n : Nat) : (s.fetched n).cart = s.cart := rfl
@[simp] theorem State.fetched_f (s : State) (n : Nat) : (s.fetched n).f = s.f := rfl
@[simp] theorem State.fetched_sp (s : State) (n : Nat) : (s.fetched n).sp = s.sp := rfl
@[simp] theorem State.fetched_halted (s : State) (n : Nat) : (s.fetched n).halted = s.halted := rfl
@[simp] theorem State.fetched_fault (s : State) (n : Nat) : (s.fetched n).fault = s.fault := rfl
@[simp] theorem State.fetched_jrCarryMode (s : State) (n : Nat) : (s.fetched n).jrCarryMode = s.jrCarryMode := rfl
@[simp] theorem State.fetched_r8 (s : State) (n : Nat) (r : R8) : (s.fetched n).r8 r = s.r8 r := by cases r <;> rfl
@[simp] theorem busRead_fetched (s : State) (n : Nat) (addr : Int) : busRead (s.fetched n) addr = busRead s addr := rfl

/-- Fetching a byte more. -/
theorem State.fetched_succ (s : State) (n : Nat) :
    ((s.fetched n).tick 1).setPc ((s.fetched n).pc + 1) = s.fetched (n + 1) := by
  simp [State.fetched, State.tick, State.setPc, BitVec.ofNat_add, BitVec.add_assoc]

theorem State.fetched_one (s : State) : (s.tick 1).setPc (s.pc + 1) = s.fetched 1 := rfl

/-- Everything a completed operand fetch can do (40_step_cycle.md R133), from a state `n` bytes past `s`. -/
theorem fetchImmediates_ok {s t : State} {n count : Nat} {b1 b2 : Byte}
    (h : fetchImmediates count (s.fetched n) = .ok ((b1, b2), t)) :
    (count = 0 ∧ b1 = 0 ∧ b2 = 0 ∧ t = s.fetched n) ∨
    (count = 1 ∧ busRead s (s.fetched n).pc.toNat = some b1 ∧ b2 = 0 ∧ t = s.fetched (n + 1)) ∨
    (2 ≤ count ∧ busRead s (s.fetched n).pc.toNat = some b1 ∧ busRead s (s.fetched (n + 1)).pc.toNat = some b2 ∧
      t = s.fetched (n + 2)) := by
  match count with
  | 0 =>
    cases h
    exact .inl ⟨rfl, rfl, rfl, rfl⟩
  | 1 =>
    rcases fetchByte_cases (s.fetched n) with ⟨v, hv, he⟩ | ⟨_, he⟩
    · simp only [fetchImmediates, he] at h
      cases h
      exact .inr (.inl ⟨rfl, by simpa using hv, rfl, s.fetched_succ n⟩)
    · simp [fetchImmediates, he] at h
  | k + 2 =>
    rcases fetchByte_cases (s.fetched n) with ⟨v, hv, he⟩ | ⟨_, he⟩
    · rw [s.fetched_succ n] at he
      rcases fetchByte_cases (s.fetched (n + 1)) with ⟨w, hw, he'⟩ | ⟨_, he'⟩
      · rw [s.fetched_succ (n + 1)] at he'
        simp only [fetchImmediates, he, he'] at h
        cases h
        exact .inr (.inr ⟨by omega, by simpa using hv, by simpa using hw, rfl⟩)
      · simp [fetchImmediates, he, he'] at h
    · simp [fetchImmediates, he] at h

/-- Everything a completed fetch can do: an opcode with a table entry, and the state past the instruction. -/
theorem fetchInstr_ok {s t : State} {i : Instr} (h : fetchInstr s = .ok (i, t)) :
    ∃ op build b1 b2, busRead s s.pc.toNat = some op ∧ lookup op = some build ∧
      fetchImmediates (immediateCount build) (s.fetched 1) = .ok ((b1, b2), t) ∧ i = build b1 b2 := by
  rcases fetchByte_cases s with ⟨op, hop, he⟩ | ⟨_, he⟩
  · rw [s.fetched_one] at he
    cases hl : lookup op with
    | none => simp [fetchInstr, he, hl] at h
    | some build =>
      cases hf : fetchImmediates (immediateCount build) (s.fetched 1) with
      | error f => simp [fetchInstr, he, hl, hf] at h
      | ok r =>
        obtain ⟨⟨b1, b2⟩, u⟩ := r
        simp only [fetchInstr, he, hl, hf] at h
        cases h
        exact ⟨op, build, b1, b2, hop, hl, hf, rfl⟩
  · simp [fetchInstr, he] at h

/-- A completed fetch leaves the state past the instruction's bytes, each counted, and nothing else changed. -/
theorem fetchInstr_ok_state {s t : State} {i : Instr} (h : fetchInstr s = .ok (i, t)) : t = s.fetched i.length := by
  obtain ⟨op, build, b1, b2, _, hl, hf, rfl⟩ := fetchInstr_ok h
  have hlen : (build b1 b2).length = immediateCount build + 1 := by
    rw [Instr.length, length_eq_immBytes, lookup_immBytes hl]
  have hle : immediateCount build ≤ 2 := by
    rw [← lookup_immBytes hl b1 b2]
    cases (build b1 b2).tuple.mode <;> decide
  rw [hlen]
  rcases fetchImmediates_ok hf with ⟨hc, _, _, ht⟩ | ⟨hc, _, _, ht⟩ | ⟨hc, _, _, ht⟩
  · rw [hc, ht]
  · rw [hc, ht]
  · rw [ht, show immediateCount build = 2 by omega]

/-- A step that answers a next state: enabled, fetched, and the instruction's own effect. -/
theorem step_next_iff {s t : State} :
    step s = .next t ↔ s.Enabled ∧ ∃ i u, fetchInstr s = .ok (i, u) ∧ exec i u = .next t := by
  unfold step
  cases hn : s.noStep with
  | some r =>
    have : ¬s.Enabled := by rw [← noStep_eq_none_iff, hn]; simp
    simp [this]
  | none =>
    have : s.Enabled := (noStep_eq_none_iff s).1 hn
    cases hf : fetchInstr s with
    | error f => simp
    | ok r =>
      obtain ⟨i, u⟩ := r
      simp only [Except.ok.injEq, Prod.mk.injEq]
      exact ⟨fun h => ⟨this, i, u, ⟨rfl, rfl⟩, h⟩, fun ⟨_, _, _, ⟨hi, hu⟩, h⟩ => hi ▸ hu ▸ h⟩

/-- Everything a step can do. -/
theorem step_cases (s : State) :
    (¬s.Enabled ∧ ∃ r, step s = .refused r) ∨
    (s.Enabled ∧ ∃ i u, fetchInstr s = .ok (i, u) ∧ step s = exec i u) ∨
    (s.Enabled ∧ ∃ f, fetchInstr s = .error f ∧ step s = .fault f) := by
  unfold step
  cases hn : s.noStep with
  | some r =>
    refine .inl ⟨?_, r, rfl⟩
    rw [← noStep_eq_none_iff, hn]
    simp
  | none =>
    have : s.Enabled := (noStep_eq_none_iff s).1 hn
    cases hf : fetchInstr s with
    | error f => exact .inr (.inr ⟨this, f, rfl, rfl⟩)
    | ok r => exact .inr (.inl ⟨this, r.1, r.2, rfl, rfl⟩)

end Sys2Proof.Machine
end

