-- ==== Sys2Proof/Tests/Slice0.lean ====
section
/-! SUPPORT. Tests on fixed values, expected results from the spec's vectors (95_test_vectors.md, by their names there), and one
witness for each statement with hypotheses: a concrete state and operands that meet them. -/

namespace Sys2Proof.Tests

open Sys2Proof.Machine

/-! ### Helpers -/

/-- The machine of 95_test_vectors.md's conventions: ROM-only cartridge with `bytes` at 0x0100, `pc` there, nothing else set. -/
def start (bytes : List Byte) : State :=
  let image := Memory.ofCells (bytes.zipIdx.map fun x => (0x0100 + x.2, x.1))
  { State.construct .fault [] ⟨image, true, 0⟩ with pc := 0x0100 }

/-- The step completes and the state after it passes. -/
def completes (s : State) (check : State → Bool) : Bool :=
  match step s with
  | .next t => check t
  | .fault _ => false
  | .refused _ => false

/-- The step fails and the fault passes. -/
def fails (s : State) (check : Fault → Bool) : Bool :=
  match step s with
  | .next _ => false
  | .fault f => check f
  | .refused _ => false

/-- `pc` and `cycles` after a step from `start`. -/
def pcAndCycles (t : State) (pc : Word) (cycles : BitVec 64) : Bool := t.pc == pc && t.cycles == cycles

/-! ### Well-formedness: one ill-formed tuple for each check, refused -/

theorem test_wf_kind_refuses_jr_reg : Tuple.wf ⟨.jr, .regToReg, .reg .b, .reg .a, none, none⟩ = false := by decide
theorem test_wf_condition_refuses_ld_nz : Tuple.wf ⟨.ld, .regToReg, .reg .b, .reg .a, some .nz, none⟩ = false := by decide
theorem test_wf_operands_refuses_ld_a_f : Tuple.wf ⟨.ld, .regToReg, .reg .f, .reg .a, none, none⟩ = false := by decide
theorem test_wf_operands_refuses_inc_two_registers : Tuple.wf ⟨.inc, .reg, .reg .b, .reg .c, none, none⟩ = false := by decide
theorem test_wf_operands_refuses_load_at_sp : Tuple.wf ⟨.ld, .memPairToReg, .reg .sp, .reg .a, none, none⟩ = false := by decide
theorem test_wf_operands_refuses_byte_to_pair : Tuple.wf ⟨.ld, .imm8ToReg, .d8, .reg .bc, none, none⟩ = false := by decide
theorem test_wf_immediate_refuses_ld_with_constant :
    Tuple.wf ⟨.ld, .regToReg, .reg .b, .reg .a, none, some 0x00⟩ = false := by decide
theorem test_wf_immediate_refuses_stop_with_constant :
    Tuple.wf ⟨.stop, .none, .absent, .absent, none, some 0x00⟩ = false := by decide
theorem test_wf_accepts_ld_a_b : Instr.WellFormed .ldA_B := by decide

/-! ### Decoding: words written out bit by bit from the opcode column of 30_encoding.md R105 -/

theorem test_decode_ld_d_d8 : decode [0b00010110, 0x7F] = .ok (.ldD_d8 0x7F, []) := by decide
theorem test_decode_ld_sp_d16_low_byte_first : decode [0b00110001, 0xFE, 0xFF] = .ok (.ldSP_d16 0xFFFE, []) := by decide
theorem test_decode_ld_d_e : decode [0b01010011] = .ok (.ldD_E, []) := by decide
theorem test_decode_ld_e_d : decode [0b01011010] = .ok (.ldE_D, []) := by decide
theorem test_decode_ld_l_at_hl : decode [0b01101110] = .ok (.ldL_AtHL, []) := by decide
theorem test_decode_ld_at_hl_l : decode [0b01110101] = .ok (.ldAtHL_L, []) := by decide
theorem test_decode_ld_at_bc_a : decode [0b00000010] = .ok (.ldAtBC_A, []) := by decide
theorem test_decode_ld_a_at_de : decode [0b00011010] = .ok (.ldA_AtDE, []) := by decide
theorem test_decode_ld_a_at_hl_dec : decode [0b00111010] = .ok (.ldA_AtHLDec, []) := by decide
theorem test_decode_ld_sp_hl : decode [0b11111001] = .ok (.ldSP_HL, []) := by decide
theorem test_decode_ld_a16_sp : decode [0b00001000, 0x10, 0xC0] = .ok (.ldAtA16_SP 0xC010, []) := by decide
theorem test_decode_add_a_h : decode [0b10000100] = .ok (.addA_H, []) := by decide
theorem test_decode_add_hl_de : decode [0b00011001] = .ok (.addHL_DE, []) := by decide
theorem test_decode_inc_l : decode [0b00101100] = .ok (.incL, []) := by decide
theorem test_decode_dec_sp : decode [0b00111011] = .ok (.decSP, []) := by decide
theorem test_decode_inc_at_hl : decode [0b00110100] = .ok (.incAtHL, []) := by decide
theorem test_decode_cpl : decode [0b00101111] = .ok (.cpl, []) := by decide
theorem test_decode_rrca : decode [0b00001111] = .ok (.rrca, []) := by decide
theorem test_decode_jr_c : decode [0b00111000, 0xFE] = .ok (.jrC 0xFE, []) := by decide
theorem test_decode_nop : decode [0b00000000, 0x01] = .ok (.nop, [0x01]) := by decide
theorem test_decode_rejects_by_name : decode [0xCB, 0x00] = .error (.noEntry 0xCB) := by decide
theorem test_decode_rejects_truncated : decode [0x21, 0x34] = .error .truncated := by decide
theorem test_table_word_two_bytes : decodeTableWord 16 0x7F06 = some (.ldB_d8 0x7F) := by decide
theorem test_table_word_operand_bits_above_are_zero : decodeTableWord 8 0xFFFF21 = some (.ldHL_d16 0x0000) := by decide

/-! ### Loads -/

theorem test_L1 : completes (start [0x06, 0x7F]) (fun t => t.b == 0x7F && pcAndCycles t 0x0102 2) = true := by decide
theorem test_L3 : completes (start [0x21, 0x34, 0xC0])
    (fun t => t.h == 0xC0 && t.l == 0x34 && pcAndCycles t 0x0103 3) = true := by decide
theorem test_L8 : completes { start [0x65] with h := 0x12, l := 0xAB }
    (fun t => t.h == 0xAB && t.l == 0xAB && pcAndCycles t 0x0101 1) = true := by decide
theorem test_L9 : completes { start [0xF9] with h := 0xDF, l := 0xFF }
    (fun t => t.sp == 0xDFFF && pcAndCycles t 0x0101 2) = true := by decide
theorem test_L11 : completes { start [0x1A] with d := 0xFF, e := 0xFF, mem := [(0xFFFF, 0x1F)] }
    (fun t => t.a == 0x1F && pcAndCycles t 0x0101 2) = true := by decide
theorem test_L12 : completes { start [0x66] with h := 0xC0, l := 0x10, mem := [(0xC010, 0xD0)] }
    (fun t => t.h == 0xD0 && t.l == 0x10) = true := by decide
theorem test_L13 : completes { start [0x7E] with h := 0x01, l := 0x00 } (fun t => t.a == 0x7E) = true := by decide
theorem test_L14 : completes { start [0x02] with a := 0x42, b := 0x80 }
    (fun t => t.mem == [(0x8000, 0x42)] && pcAndCycles t 0x0101 2) = true := by decide
theorem test_L16 : completes { start [0x74] with h := 0xC1, l := 0x23 } (fun t => t.mem == [(0xC123, 0xC1)]) = true := by
  decide
theorem test_L17 : completes { start [0x77] with a := 0x55, h := 0x40 }
    (fun t => t.cart == (start [0x77]).cart && t.mem == [] && pcAndCycles t 0x0101 2) = true := by decide
theorem test_L18 : completes { start [0x2A] with h := 0xC0, l := 0xFF, mem := [(0xC0FF, 0x11)] }
    (fun t => t.a == 0x11 && t.h == 0xC1 && t.l == 0x00 && pcAndCycles t 0x0101 3) = true := by decide
theorem test_L21 : completes { start [0x3A] with cart := ⟨[(0, 0xC3), (0x0100, 0x3A)], true, 0⟩ }
    (fun t => t.a == 0xC3 && t.h == 0xFF && t.l == 0xFF) = true := by decide
theorem test_L23 : completes { start [0x08, 0xFF, 0x9F] with sp := 0xABCD }
    (fun t => t.mem == [(0x9FFF, 0xCD), (0xA000, 0xAB)] && pcAndCycles t 0x0103 5) = true := by decide
theorem test_L25 : fails { start [0x08, 0xFF, 0xFF] with sp := 0x1234 }
    (fun f => f.record == .addressError 0x10000 .write && f.left.mem == [(0xFFFF, 0x34)]) = true := by decide
theorem test_L26 : fails { start [0x08, 0xA0, 0xFE] with sp := 0x1234 }
    (fun f => f.record == .addressError 0xFEA0 .write && f.left.mem == []) = true := by decide
theorem test_L27 : fails { start [0x7E] with h := 0xFE, l := 0xA0, a := 0x77 }
    (fun f => f.record == .addressError 0xFEA0 .read && f.left.a == 0x77) = true := by decide

/-! ### Addition -/

theorem test_add_a_b_keeps_zero_flag : completes { start [0x80] with a := 0x3A, b := 0xC6 }
    (fun t => t.a == 0x00 && t.f == ⟨false, false, true, true⟩ && pcAndCycles t 0x0101 1) = true := by decide
theorem test_add_a_a_doubles : completes { start [0x87] with a := 0x88 }
    (fun t => t.a == 0x10 && t.f == ⟨false, false, true, true⟩) = true := by decide
theorem test_S6 : completes { start [0x09] with l := 0xFF, c := 0x01 }
    (fun t => t.h == 0x01 && t.l == 0x00 && t.f == ⟨false, false, true, false⟩ && pcAndCycles t 0x0101 2) = true := by decide
theorem test_add_hl_sp_half_carry_out_of_bit_7 : completes { start [0x39] with l := 0xF0, sp := 0x0010 }
    (fun t => t.h == 0x01 && t.l == 0x00 && t.f == ⟨false, false, true, false⟩) = true := by decide
theorem test_add_hl_hl_carry : completes { start [0x29] with h := 0x80, l := 0x80 }
    (fun t => t.h == 0x01 && t.l == 0x00 && t.f == ⟨false, false, true, true⟩) = true := by decide

/-! ### Increment and decrement -/

theorem test_inc_b_wraps : completes { start [0x04] with b := 0xFF, f := ⟨false, true, false, true⟩ }
    (fun t => t.b == 0x00 && t.f == ⟨true, false, true, true⟩ && pcAndCycles t 0x0101 1) = true := by decide
theorem test_dec_b_wraps : completes { start [0x05] with b := 0x00, f := ⟨true, false, false, true⟩ }
    (fun t => t.b == 0xFF && t.f == ⟨false, true, true, true⟩) = true := by decide
theorem test_inc_bc_carries : completes { start [0x03] with c := 0xFF, f := ⟨true, false, true, false⟩ }
    (fun t => t.b == 0x01 && t.c == 0x00 && t.f == ⟨true, false, true, false⟩ && pcAndCycles t 0x0101 2) = true := by
  decide
theorem test_dec_sp_wraps : completes (start [0x3B]) (fun t => t.sp == 0xFFFF && pcAndCycles t 0x0101 2) = true := by
  decide
theorem test_inc_at_hl_wraps_and_unlists : completes
    { start [0x34] with h := 0xC0, mem := [(0xC000, 0xFF)], f := ⟨false, true, false, true⟩ }
    (fun t => t.mem == [] && t.f == ⟨true, false, true, true⟩ && pcAndCycles t 0x0101 3) = true := by decide
theorem test_dec_at_hl_borrows : completes { start [0x35] with h := 0xC0, mem := [(0xC000, 0x10)] }
    (fun t => t.mem == [(0xC000, 0x0F)] && t.f == ⟨false, true, true, false⟩) = true := by decide

/-! ### Accumulator, flags, rotates -/

theorem test_S5 : completes { start [0x27] with a := 0x9A }
    (fun t => t.a == 0x00 && t.f == ⟨true, false, false, true⟩ && pcAndCycles t 0x0101 1) = true := by decide
theorem test_daa_after_subtract : completes { start [0x27] with a := 0x05, f := ⟨false, true, true, false⟩ }
    (fun t => t.a == 0xFF && t.f == ⟨false, true, false, false⟩) = true := by decide
theorem test_cpl : completes { start [0x2F] with a := 0xFF, f := ⟨true, true, true, true⟩ }
    (fun t => t.a == 0x00 && t.f == ⟨true, false, false, true⟩) = true := by decide
theorem test_scf : completes { start [0x37] with a := 0x12, f := ⟨true, true, true, false⟩ }
    (fun t => t.a == 0x12 && t.f == ⟨true, true, true, true⟩) = true := by decide
theorem test_rlca : completes { start [0x07] with a := 0x95, f := ⟨true, true, true, true⟩ }
    (fun t => t.a == 0x2B && t.f == ⟨false, false, false, true⟩) = true := by decide
theorem test_rrca : completes { start [0x0F] with a := 0x81, f := ⟨true, true, true, false⟩ }
    (fun t => t.a == 0xC0 && t.f == ⟨false, false, false, true⟩) = true := by decide
theorem test_rla : completes { start [0x17] with a := 0x81, f := ⟨true, true, true, false⟩ }
    (fun t => t.a == 0x02 && t.f == ⟨false, false, false, true⟩) = true := by decide
theorem test_rra : completes { start [0x1F] with a := 0x80, f := ⟨true, true, true, true⟩ }
    (fun t => t.a == 0xC0 && t.f == ⟨false, false, false, false⟩) = true := by decide

/-! ### Jumps and control -/

theorem test_S8 : completes (start [0x18, 0x0A]) (fun t => pcAndCycles t 0x010C 3) = true := by decide
theorem test_S9 : completes { start [0x20, 0x0A] with f := ⟨true, false, false, false⟩ }
    (fun t => pcAndCycles t 0x0102 2) = true := by decide
theorem test_jr_z_backward : completes { start [0x28, 0xFC] with f := ⟨true, false, false, false⟩ }
    (fun t => pcAndCycles t 0x00FE 3) = true := by decide
theorem test_jr_nc_faults : fails (start [0x30, 0x02])
    (fun f => f.record == .executionError .nc && pcAndCycles f.left 0x0102 2) = true := by decide
theorem test_jr_nc_implemented : completes { start [0x30, 0x02] with jrCarryMode := .implemented }
    (fun t => pcAndCycles t 0x0104 3) = true := by decide
theorem test_jr_c_faults_with_carry : fails { start [0x38, 0x02] with f := ⟨false, false, false, true⟩ }
    (fun f => f.record == .executionError .c) = true := by decide
theorem test_jr_c_implemented_not_taken : completes { start [0x38, 0x02] with jrCarryMode := .implemented }
    (fun t => pcAndCycles t 0x0102 2) = true := by decide
theorem test_nop_at_top_fetches_ie_and_wraps : completes { start [] with pc := 0xFFFF }
    (fun t => pcAndCycles t 0x0000 1) = true := by decide
theorem test_stop : completes (start [0x10]) (fun t => t.halted && pcAndCycles t 0x0101 1) = true := by decide

/-! ### Faults -/

theorem test_X2 : fails (start [0x76])
    (fun f => f.record == .decodeError 0x76 && pcAndCycles f.left 0x0101 1) = true := by decide
theorem test_X4 : fails { start [] with pc := 0xFEA0 }
    (fun f => f.record == .addressError 0xFEA0 .read && f.left.pc == 0xFEA0) = true := by decide
theorem test_X5 : fails { start [] with pc := 0xFE9F, mem := [(0xFE9F, 0x3E)] }
    (fun f => f.record == .addressError 0xFEA0 .read && f.left.pc == 0xFEA0) = true := by decide

/-! ### Bus and driver -/

/-- The byte a driver's bus write leaves at the address, none where it fails. -/
def writtenAndRead (addr v : Int) : Option Byte :=
  match busWriteByte (start []) v addr with
  | .ok t => busRead t addr
  | .error _ => none

theorem test_B2 : writtenAndRead 0x8000 0xA5 = some 0xA5 := by decide
theorem test_B13 : writtenAndRead 0xFE9F 0xA5 = some 0xA5 := by decide
theorem test_B14 : writtenAndRead 0xFEA0 0xA5 = none := by decide
theorem test_B15 : writtenAndRead 0xFEFF 0xA5 = none := by decide
theorem test_B21 : writtenAndRead 0xFFFF 0x1A5 = some 0xA5 := by decide
theorem test_B22 : writtenAndRead 0x10000 0xA5 = none := by decide
theorem test_B23 : writtenAndRead (-1) 0xA5 = none := by decide
theorem test_B10_echo_is_no_alias :
    (busWrite (start []) 0xE000 0xA5).map (fun t => busRead t 0xC000) = some (some 0x00) := by decide
theorem test_set_af : ((start []).setRegister 0x12FF .af).getRegister .af = 0x12F0 := by decide
theorem test_set_pc_masks : ((start []).setRegister 0x12345 .pc).getRegister .pc = 0x2345 := by decide
theorem test_set_a_negative : ((start []).setRegister (-1) .a).getRegister .a = 0xFF := by decide

/-- A driver's failing access on a core with a fault recorded: log 28. -/
theorem test_driver_fault_replaces_the_record :
    (match driverCall (.busRead 0xFEFF) { start [] with fault := some (.decodeError 0x76) } with
      | .ok _ => none
      | .error f => f.left.fault) = some (.addressError 0xFEFF .read) := by decide

/-! ### The host's two placements -/

theorem test_with_fetch_word_runs_it : completes (State.reset.withFetchWord 16 0x7F06)
    (fun t => t.b == 0x7F && pcAndCycles t 0x0002 2) = true := by decide
theorem test_with_fetch_word_leaves_a_halt : completes
    ({ State.reset with halted := true, pc := 0xFEA0 }.withFetchWord 8 0x04) (fun t => t.b == 0x01) = true := by decide

/-! ### Witnesses: states and operands that meet the hypotheses of the statements, at the ends of their ranges -/

/-- HL at an address, memory and cartridge with a byte each. -/
def atHL (h l : Byte) : State :=
  { State.construct .fault [(0x8000, 0x11), (0xFFFF, 0x22)] ⟨[(0x0000, 0x33), (0x7FFF, 0x44)], true, 0⟩ with h := h, l := l }

/-- `LD (BC),A` about to store 0x42 at 0x8000. -/
def storing : State := { start [0x02] with a := 0x42, b := 0x80 }

theorem witness_InvariantHoldsAtConstruction :
    Memory.wf [(0x8000, 0x11), (0xFFFF, 0x22)] ∧ (∀ x ∈ ([(0x8000, 0x11), (0xFFFF, 0x22)] : Memory), InBuffers x.1) ∧
      Memory.wf [(0x0000, 0x33), (0x7FFF, 0x44)] ∧ ∀ x ∈ ([(0x0000, 0x33), (0x7FFF, 0x44)] : Memory), InCart x.1 := by
  decide

theorem witness_StepKeepsTheInvariant : storing.Inv ∧ ∃ t, step storing = .next t := ⟨by decide, _, rfl⟩

/-- One step and one driver call from construction, on a ROM-only cartridge that holds `INC B`. -/
theorem witness_ReachableStatesMeetTheInvariant :
    let cart : Cart := ⟨[(0x0000, 0x04)], true, 0⟩
    cart.image.wf ∧ (∀ x ∈ cart.image, InCart x.1) ∧ cart.romOnly = true ∧
      ∃ s, Reachable .implemented [] cart s ∧ s.b = 0x01 ∧ s.c = 0x02 :=
  ⟨by decide, by decide, rfl, _,
    .driver (.setRegister 0x02 .c) (.step .construct (t := { State.construct .implemented [] ⟨[(0x0000, 0x04)], true, 0⟩ with
      b := 0x01, pc := 0x0001, cycles := 1 }) rfl) rfl, rfl, rfl⟩

theorem witness_DecodedBytesAreTheEncoding : ∃ i, decode [0x08, 0x00, 0xC1, 0xFF] = .ok (i, [0xFF]) := ⟨_, rfl⟩

theorem witness_StepRunsTheDecodedInstruction :
    (start [0x21, 0x34, 0xC0]).Enabled ∧ decode [0x21, 0x34, 0xC0, 0x76] = .ok (.ldHL_d16 0xC034, [0x76]) ∧
      ∀ k, k < (Instr.ldHL_d16 0xC034).length →
        busRead (start [0x21, 0x34, 0xC0]) ((start [0x21, 0x34, 0xC0]).pc + BitVec.ofNat 16 k).toNat =
          ([0x21, 0x34, 0xC0, 0x76] : List Byte)[k]? := by
  decide

theorem witness_OpcodeFetchReadsThenAdvances :
    busRead { start [] with pc := 0xFFFF } 0xFFFF = some 0x00 ∧ busRead { start [] with pc := 0xFEA0 } 0xFEA0 = none ∧
      State.Enabled { start [] with pc := 0xFEA0 } := by decide

theorem witness_AbsentOpcodeRaisesDecodeError :
    (start [0x76]).Enabled ∧ busRead (start [0x76]) (start [0x76]).pc.toNat = some 0x76 ∧ (lookup 0x76).isNone = true ∧
      ∃ left, step (start [0x76]) = .fault (.decodeError 0x76 left) := ⟨by decide, by decide, by decide, _, rfl⟩

/-- The opcode, the first and the second immediate byte at 0xFEA0. -/
theorem witness_FetchFaultLeavesEarlierBytesFetched :
    let at0 : State := { start [] with pc := 0xFEA0 }
    let at1 : State := { start [] with pc := 0xFE9F, mem := [(0xFE9F, 0x3E)] }
    let at2 : State := { start [] with pc := 0xFE9E, mem := [(0xFE9E, 0x21), (0xFE9F, 0x34)] }
    (at0.Enabled ∧ ¬InMap (at0.pc + BitVec.ofNat 16 0).toNat) ∧
    (at1.Enabled ∧ 1 < (Instr.ldA_d8 0x00).length ∧
      (∀ j, j < 1 → busRead at1 (at1.pc + BitVec.ofNat 16 j).toNat = (encode (.ldA_d8 0x00))[j]?) ∧
      ¬InMap (at1.pc + BitVec.ofNat 16 1).toNat) ∧
    (at2.Enabled ∧ 2 < (Instr.ldHL_d16 0xC034).length ∧
      (∀ j, j < 2 → busRead at2 (at2.pc + BitVec.ofNat 16 j).toNat = (encode (.ldHL_d16 0xC034))[j]?) ∧
      ¬InMap (at2.pc + BitVec.ofNat 16 2).toNat) := by decide

theorem witness_FaultEndsTheRun : ∃ f, step (start [0x76]) = .fault f := ⟨_, rfl⟩

theorem witness_BodyFaultsOnlyAsListed :
    (∃ f, exec .ldA_AtHL (atHL 0xFE 0xA0) = .fault f) ∧ (∃ f, exec .ldAtHL_A (atHL 0xFE 0xFF) = .fault f) ∧
    (∃ f, exec (.jrNC 0x00) State.reset = .fault f) ∧ ∃ f, exec (.jrC 0x00) State.reset = .fault f :=
  ⟨⟨_, rfl⟩, ⟨_, rfl⟩, ⟨_, rfl⟩, ⟨_, rfl⟩⟩

/-- An untaken jump, and an instruction whose step passes the top of the address space. -/
theorem witness_CycleTotalsFollowTheTable :
    (∃ u t, fetchInstr (start [0x28, 0x0A]) = .ok (.jrZ 0x0A, u) ∧ step (start [0x28, 0x0A]) = .next t) ∧
    ∃ u t, fetchInstr (start [0x2A]) = .ok (.ldA_AtHLInc, u) ∧ step (start [0x2A]) = .next t :=
  ⟨⟨_, _, rfl, rfl⟩, _, _, rfl, rfl⟩

theorem witness_PcPassesTheInstruction :
    (∃ u t, fetchInstr { start [] with pc := 0xFFFF } = .ok (.nop, u) ∧ step { start [] with pc := 0xFFFF } = .next t) ∧
      Instr.nop.tuple.mode ≠ .rel8 := ⟨⟨_, _, rfl, rfl⟩, by decide⟩

theorem witness_HaltedIsSetByStopAlone :
    (∃ t, exec .stop State.reset = .next t) ∧ (∃ t, exec .nop State.reset = .next t) ∧
    (∃ t u, step (start [0x10]) = .next t ∧ fetchInstr (start [0x10]) = .ok (.stop, u)) ∧
    ∃ t, driverCall (.busWrite 0xA5 0x8000) { State.reset with halted := true } = .ok t :=
  ⟨⟨_, rfl⟩, ⟨_, rfl⟩, ⟨_, _, rfl, rfl⟩, _, rfl⟩

theorem witness_CycleCounterInfluencesNothing : ∃ t, step storing = .next t := ⟨_, rfl⟩

theorem witness_OnlyNamedRegistersAreWritten :
    (∃ t, exec (.ldBC_d16 0x1234) State.reset = .next t) ∧ (Instr.ldBC_d16 0x1234).names .d = false ∧
      (Instr.ldBC_d16 0x1234).tuple.destination ≠ .reg .sp := ⟨⟨_, rfl⟩, by decide, by decide⟩

theorem witness_FlagsFollowTheEffectTable : (∃ t, exec .daa State.reset = .next t) ∧ ∃ t, exec .incAtHL (atHL 0xFF 0xFF) = .next t :=
  ⟨⟨_, rfl⟩, _, rfl⟩

theorem witness_LoadsNeitherWriteNorReadFlags :
    Instr.ldAtHL_A.tuple.kind = .ld ∧ ∃ t, exec .ldAtHL_A (atHL 0x80 0x00) = .next t := ⟨rfl, _, rfl⟩

theorem witness_PairsAreViewsOfTheirHalves : RegisterType.af ∈ [RegisterType.af, .bc, .de, .hl] := by decide

theorem witness_FlagSetterWritesOneFlag : Flag.z ≠ Flag.c := by decide

theorem witness_DriverRegisterWriteReadsBackMasked :
    RegisterType.af.covers .b = false ∧ RegisterType.bc ≠ .f ∧ RegisterType.bc ≠ .af ∧ RegisterType.bc ≠ .sp ∧
      RegisterType.bc ≠ .pc := by decide

theorem witness_PassThroughCostsOneCycle :
    busRead (start []) 0x0000 = some 0x00 ∧ InMap 0x0000 ∧ InMap 0xFE9F ∧ InMap 0xFF00 ∧ InMap 0xFFFF ∧
      (start []).Inv ∧ InBuffers 0x8000 ∧ InBuffers 0xFFFF ∧ ¬InMap 0xFEA0 ∧ ¬InMap 0x10000 ∧ ¬InMap (-1) := by decide

theorem witness_DriverCallKeepsControlAndInvariant :
    (∃ t, driverCall (.cpuWrite 0xA5 0x8000) (atHL 0x00 0x00) = .ok t) ∧ (atHL 0x00 0x00).Inv ∧
    (∃ f, driverCall (.busRead 0xFEA0) (atHL 0x00 0x00) = .error f) ∧
      ∃ f, driverCall (.cpuWrite 0xA5 0x10000) (atHL 0x00 0x00) = .error f :=
  ⟨⟨_, rfl⟩, by decide, ⟨_, rfl⟩, _, rfl⟩

theorem witness_RouterFollowsTheRegionTable :
    InCart 0x0000 ∧ InCart 0x7FFF ∧ InBuffers 0x8000 ∧ InBuffers 0xFE9F ∧ InBuffers 0xFF00 ∧ InBuffers 0xFFFF := by decide

theorem witness_AddressErrorExactlyOutsideTheMap :
    busRead State.reset 0xFEA0 = none ∧ busRead State.reset 0xFEFF = none ∧ busRead State.reset 0x10000 = none ∧
      busRead State.reset (-1) = none := by decide

theorem witness_BufferBytesReadBackWhatWasWritten :
    (atHL 0x00 0x00).Inv ∧ (∃ t, busWrite (atHL 0x00 0x00) 0x8000 0xA5 = some t) ∧ InBuffers 0x8000 ∧ InBuffers 0xFFFF ∧
      (0xFFFF : Int) ≠ 0x8000 := ⟨by decide, ⟨_, rfl⟩, by decide, by decide, by decide⟩

theorem witness_RomOnlyCartridgeDiscardsWrites :
    storing.cart.romOnly = true ∧ InCart 0x0000 ∧ InCart 0x7FFF ∧ ∃ t, step storing = .next t :=
  ⟨rfl, by decide, by decide, _, rfl⟩

theorem witness_StoreIsSeenByTheNextFetch :
    State.Inv { atHL 0x00 0x00 with pc := 0x8000 } ∧ InBuffers (0x8000 : Word).toNat ∧
      ∃ t, memWrite { atHL 0x00 0x00 with pc := 0x8000 } (0x8000 : Word).toNat 0x04 = .ok t :=
  ⟨by decide, by decide, _, rfl⟩

theorem witness_LoadImmediateWord : R16.hl ≠ .sp := by decide

/-- The map's ends, and the gap's, as addresses in HL. -/
theorem witness_LoadFromPairAddress :
    InMap ((atHL 0x00 0x00).r16 .hl).toNat ∧ InMap ((atHL 0xFE 0x9F).r16 .hl).toNat ∧
    InMap ((atHL 0xFF 0xFF).r16 .hl).toNat ∧ ((atHL 0xFE 0xA0).r16 .hl).toNat = 0xFEA0 ∧
      ((atHL 0xFE 0xFF).r16 .hl).toNat = 0xFEFF := by decide

theorem witness_StoreToPairAddress :
    (∀ h l, (atHL h l).Inv) ∧ InBuffers ((atHL 0x80 0x00).r16 .hl).toNat ∧ InBuffers ((atHL 0xFF 0xFF).r16 .hl).toNat ∧
    InCart ((atHL 0x00 0x00).r16 .hl).toNat ∧ InCart ((atHL 0x7F 0xFF).r16 .hl).toNat ∧
    (atHL 0x7F 0xFF).cart.romOnly = true ∧ ((atHL 0xFE 0xA0).r16 .hl).toNat = 0xFEA0 ∧
      ((atHL 0xFE 0xFF).r16 .hl).toNat = 0xFEFF := by
  refine ⟨fun h l => ?_, by decide⟩
  exact (show (atHL 0x00 0x00).Inv by decide)

theorem witness_LoadThenStepHl :
    InMap ((atHL 0xFF 0xFF).r16 .hl).toNat ∧ InMap ((atHL 0x00 0x00).r16 .hl).toNat ∧
      ((atHL 0xFE 0xA0).r16 .hl).toNat = 0xFEA0 ∧ ((atHL 0xFE 0xFF).r16 .hl).toNat = 0xFEFF := by decide

/-- Both bytes in the cartridge, across its end, and at the top of the address space. -/
theorem witness_StoreSpWritesLowThenHigh :
    (atHL 0x00 0x00).Inv ∧ (InCart (0x0000 : Word).toNat ∧ InCart ((0x0000 : Word).toNat + 1)) ∧
    (InMap (0x7FFF : Word).toNat ∧ InBuffers ((0x7FFF : Word).toNat + 1)) ∧
    (InBuffers (0xFFFE : Word).toNat ∧ InBuffers ((0xFFFE : Word).toNat + 1)) := by decide

theorem witness_StoreSpFaultKeepsTheLowByte :
    (atHL 0x00 0x00).Inv ∧ (0xFEA0 ≤ (0xFEA0 : Word).toNat ∧ (0xFEA0 : Word).toNat ≤ 0xFEFF) ∧
    (0xFEA0 ≤ (0xFEFF : Word).toNat ∧ (0xFEFF : Word).toNat ≤ 0xFEFF) ∧ (0xFE9F : Word).toNat = 0xFE9F ∧
      (0xFFFF : Word).toNat = 0xFFFF := by decide

theorem witness_IncrementAndDecrementPair : R16.bc ≠ .sp := by decide

theorem witness_IncrementAndDecrementByteAtHl :
    (atHL 0x80 0x00).Inv ∧ busRead (atHL 0x80 0x00) ((atHL 0x80 0x00).r16 .hl).toNat = some 0x11 ∧
    InBuffers ((atHL 0x80 0x00).r16 .hl).toNat ∧
    busRead (atHL 0x7F 0xFF) ((atHL 0x7F 0xFF).r16 .hl).toNat = some 0x44 ∧
    InCart ((atHL 0x7F 0xFF).r16 .hl).toNat ∧ (atHL 0x7F 0xFF).cart.romOnly = true ∧
    ((atHL 0xFE 0xA0).r16 .hl).toNat = 0xFEA0 ∧ ((atHL 0xFE 0xFF).r16 .hl).toNat = 0xFEFF := by decide

/-- 99 + 99 in packed BCD. -/
theorem witness_DecimalAdjustAfterAddIsDecimalSum :
    ∃ u t, exec .addA_B { State.reset with a := 0x99, b := 0x99 } = .next u ∧ exec .daa u = .next t ∧
      (0x99 : Byte).toNat = 16 * (99 / 10) + 99 % 10 ∧ t.a = 0x98 := ⟨_, _, rfl, rfl, by decide, by decide⟩

theorem witness_RotateLaws :
    (∃ u t, exec .rlca State.reset = .next u ∧ exec .rrca u = .next t) ∧
    (∃ u t, exec .rrca State.reset = .next u ∧ exec .rlca u = .next t) ∧
    (∃ u t, exec .rla State.reset = .next u ∧ exec .rra u = .next t) ∧
    ∃ u t, exec .rra State.reset = .next u ∧ exec .rla u = .next t :=
  ⟨⟨_, _, rfl, rfl⟩, ⟨_, _, rfl, rfl⟩, ⟨_, _, rfl, rfl⟩, _, _, rfl, rfl⟩

theorem witness_ConditionalJumpOnZero :
    (!State.reset.f.z) = true ∧ State.reset.f.z = false ∧
      (!(State.reset.setFlag .z true).f.z) = false ∧ (State.reset.setFlag .z true).f.z = true := by decide

theorem witness_ConditionalJumpOnCarryWhenImplemented :
    let s := State.construct .implemented [] blankCart
    s.jrCarryMode = .implemented ∧ (!s.f.c) = true ∧ s.f.c = false ∧
      (s.setFlag .c true).jrCarryMode = .implemented ∧ (!(s.setFlag .c true).f.c) = false ∧
      (s.setFlag .c true).f.c = true := by decide

theorem witness_CarryJumpFaultsWhenUnsupported : State.reset.jrCarryMode = .fault := by decide

end Sys2Proof.Tests
end

section
/-! PROOFS. The row of the opcode table each shared body stands for, so that a rule of the whole table is a case per body. -/

namespace Sys2Proof

/-- The register name of a general 8-bit register (10_state.md R23). -/
def R8.name : R8 → RegisterType
  | .a => .a
  | .b => .b
  | .c => .c
  | .d => .d
  | .e => .e
  | .h => .h
  | .l => .l

/-- The register name of a 16-bit register (10_state.md R23). -/
def R16.name : R16 → RegisterType
  | .bc => .bc
  | .de => .de
  | .hl => .hl
  | .sp => .sp

@[simp] theorem R8.name_covers (q r : R8) : q.name.covers r = (r == q) := by cases q <;> rfl

@[simp] theorem R16.name_covers (p : R16) (r : R8) : p.name.covers r = decide (r ∈ p.halves) := by
  cases p <;> cases r <;> rfl

@[simp] theorem RegisterType.a_covers (r : R8) : RegisterType.a.covers r = (r == .a) := R8.name_covers .a r

@[simp] theorem RegisterType.hl_covers (r : R8) : RegisterType.hl.covers r = decide (r ∈ R16.hl.halves) :=
  R16.name_covers .hl r

@[simp] theorem R16.name_eq_sp_iff (p : R16) : p.name = .sp ↔ p = .sp := by
  cases p <;> simp [R16.name]

namespace Machine

/-- The table's columns (30_encoding.md R104, R105) for a body with its operands. -/
def Body.tuple : Body → Tuple
  | .imm8 r _ => ⟨.ld, .imm8ToReg, .d8, .reg r.name, none, none⟩
  | .imm16 p _ => ⟨.ld, .imm16ToReg, .d16, .reg p.name, none, none⟩
  | .reg dst src => ⟨.ld, .regToReg, .reg src.name, .reg dst.name, none, none⟩
  | .pair dst src => ⟨.ld, .pairToPair, .reg src.name, .reg dst.name, none, none⟩
  | .fromPair dst p => ⟨.ld, .memPairToReg, .reg p.name, .reg dst.name, none, none⟩
  | .toPair p src => ⟨.ld, .regToMemPair, .reg src.name, .reg p.name, none, none⟩
  | .stepHL delta =>
    ⟨.ld, if delta = 1 then .memPairToRegInc else .memPairToRegDec, .reg .hl, .reg .a, none, none⟩
  | .storeSP _ => ⟨.ld, .pairToMemImm16, .reg .sp, .a16, none, none⟩
  | .addA src => ⟨.add, .regToReg, .reg src.name, .reg .a, none, none⟩
  | .addHL src => ⟨.add, .pairToPair, .reg src.name, .reg .hl, none, none⟩
  | .incR r => ⟨.inc, .reg, .reg r.name, .reg r.name, none, none⟩
  | .decR r => ⟨.dec, .reg, .reg r.name, .reg r.name, none, none⟩
  | .incP p => ⟨.inc, .pair, .reg p.name, .reg p.name, none, none⟩
  | .decP p => ⟨.dec, .pair, .reg p.name, .reg p.name, none, none⟩
  | .incAtHL => ⟨.inc, .memPair, .reg .hl, .reg .hl, none, none⟩
  | .decAtHL => ⟨.dec, .memPair, .reg .hl, .reg .hl, none, none⟩
  | .daa => ⟨.daa, .none, .reg .a, .reg .a, none, none⟩
  | .cpl => ⟨.cpl, .none, .reg .a, .reg .a, none, none⟩
  | .scf => ⟨.scf, .none, .absent, .absent, none, none⟩
  | .rlca => ⟨.rlca, .none, .reg .a, .reg .a, none, none⟩
  | .rrca => ⟨.rrca, .none, .reg .a, .reg .a, none, none⟩
  | .rla => ⟨.rla, .none, .reg .a, .reg .a, none, none⟩
  | .rra => ⟨.rra, .none, .reg .a, .reg .a, none, none⟩
  | .jump cond _ => ⟨.jr, .rel8, .e8, .reg .pc, cond, none⟩
  | .nop => ⟨.nop, .none, .absent, .absent, none, none⟩
  | .stop => ⟨.stop, .none, .absent, .absent, none, none⟩

/-- The table row of an instruction is that of its body. -/
theorem tuple_eq_bodyOf_tuple (i : Instr) : i.tuple = (bodyOf i).tuple := by cases i <;> rfl

theorem bodyOf_eq_stop_iff (i : Instr) : bodyOf i = .stop ↔ i = .stop := by
  cases i <;> simp [bodyOf]

end Machine

end Sys2Proof
end

section
/-! PROOFS. What a body does where it completes, as one relation, and what it raises where it does not. The facts about steps of this
part of the spec are cases of the relation. -/

namespace Sys2Proof.Machine

/-- The completed runs of each body: the state `t` it leaves and, where it reaches the bus or tests a condition, what makes it
complete (`run_next_iff` ties it to `Body.run`). -/
inductive Body.Completes : Body → State → State → Prop
  | imm8 {s r d8} : Completes (.imm8 r d8) s (s.setR8 r d8)
  | imm16 {s p d16} : Completes (.imm16 p d16) s (s.setR16 p d16)
  | reg {s dst src} : Completes (.reg dst src) s (s.setR8 dst (s.r8 src))
  | pair {s dst src} : Completes (.pair dst src) s ((s.setR16 dst (s.r16 src)).tick 1)
  | fromPair {s dst p v} (read : busRead s (s.ea p) = some v) :
      Completes (.fromPair dst p) s ((s.tick 1).setR8 dst v)
  | toPair {s t p src} (write : memWrite s (s.ea p) (s.r8 src) = .ok t) : Completes (.toPair p src) s t
  | stepHL {s delta v} (read : busRead s (s.ea .hl) = some v) :
      Completes (.stepHL delta) s ((((s.tick 1).setR8 .a v).setR16 .hl (s.r16 .hl + delta)).tick 1)
  | storeSP {s t u a16} (low : memWrite s (eaLow a16) (lowByte s.sp) = .ok t)
      (high : memWrite t (eaHigh a16) (highByte s.sp) = .ok u) : Completes (.storeSP a16) s u
  | addA {s src} : Completes (.addA src) s
      ((s.setR8 .a (BitVec.ofNat 8 (sum8 s.a (s.r8 src)))).setFlags (add8Flags s.f s.a (s.r8 src)))
  | addHL {s src} : Completes (.addHL src) s
      (((s.setR16 .hl (BitVec.ofNat 16 (sum16 (s.r16 .hl) (s.r16 src)))).tick 1).setFlags
        (add16Flags s.f (s.r16 .hl) (s.r16 src)))
  | incR {s r} : Completes (.incR r) s
      ((s.setR8 r (incrementValue (s.r8 r))).setFlags (inc8Flags s.f (s.r8 r) (incrementValue (s.r8 r))))
  | decR {s r} : Completes (.decR r) s
      ((s.setR8 r (decrementValue (s.r8 r))).setFlags (dec8Flags s.f (s.r8 r) (decrementValue (s.r8 r))))
  | incP {s p} : Completes (.incP p) s ((s.setR16 p (s.r16 p + 1)).tick 1)
  | decP {s p} : Completes (.decP p) s ((s.setR16 p (s.r16 p - 1)).tick 1)
  | incAtHL {s t v} (read : busRead s (s.ea .hl) = some v)
      (write : memWrite (s.tick 1) (s.ea .hl) (incrementValue v) = .ok t) :
      Completes .incAtHL s (t.setFlags (inc8Flags s.f v (incrementValue v)))
  | decAtHL {s t v} (read : busRead s (s.ea .hl) = some v)
      (write : memWrite (s.tick 1) (s.ea .hl) (decrementValue v) = .ok t) :
      Completes .decAtHL s (t.setFlags (dec8Flags s.f v (decrementValue v)))
  | daa {s} : Completes .daa s ((s.setR8 .a (daaResult s.f s.a)).setFlags (daaFlags s.f s.a))
  | cpl {s} : Completes .cpl s ((s.setR8 .a (~~~s.a)).setFlags (cplFlags s.f))
  | scf {s} : Completes .scf s (s.setFlags (scfFlags s.f))
  | rlca {s} : Completes .rlca s
      ((s.setR8 .a (shiftLeftWith s.a (s.a.getLsbD 7))).setFlags (rotateFlags (s.a.getLsbD 7)))
  | rrca {s} : Completes .rrca s
      ((s.setR8 .a (shiftRightWith s.a (s.a.getLsbD 0))).setFlags (rotateFlags (s.a.getLsbD 0)))
  | rla {s} : Completes .rla s ((s.setR8 .a (shiftLeftWith s.a s.f.c)).setFlags (rotateFlags (s.a.getLsbD 7)))
  | rra {s} : Completes .rra s ((s.setR8 .a (shiftRightWith s.a s.f.c)).setFlags (rotateFlags (s.a.getLsbD 0)))
  | jumpTaken {s cond e8} (holds : evalCond s.jrCarryMode s.f cond = .ok true) :
      Completes (.jump cond e8) s ((s.setPc (jumpTarget s.pc e8)).tick 1)
  | jumpNotTaken {s cond e8} (fails : evalCond s.jrCarryMode s.f cond = .ok false) :
      Completes (.jump cond e8) s s
  | nop {s} : Completes .nop s s
  | stop {s} : Completes .stop s s.halt

/-- `f` is raised, by the one way there is, in a state whose `halted` is that of `s`. -/
def RaisedFrom (s : State) (f : Fault) : Prop := ∃ r u, f = raise r u ∧ u.halted = s.halted

theorem raisedFrom_access {s u : State} (addr : Int) (dir : AccessDir) (h : u.halted = s.halted) :
    RaisedFrom s (raise (.addressError addr dir) (u.atFailingAccess addr dir)) := by
  refine ⟨_, _, rfl, ?_⟩
  rcases atFailingAccess_cases u addr dir with he | he <;> simpa [he] using h

/-- Everything a body can do: complete, or raise a fault. -/
theorem run_cases (b : Body) (s : State) :
    (∃ t, b.Completes s t ∧ b.run s = .next t) ∨ ∃ f, RaisedFrom s f ∧ b.run s = .fault f := by
  cases b with
  | fromPair dst p =>
    rcases loadFromPair_cases dst p s with ⟨v, hv, he⟩ | ⟨_, he⟩
    · exact .inl ⟨_, .fromPair hv, he⟩
    · exact .inr ⟨_, raisedFrom_access _ _ rfl, he⟩
  | toPair p src =>
    rcases storeToPair_cases p src s with ⟨t, ht, he⟩ | ⟨_, he⟩
    · exact .inl ⟨_, .toPair ht, he⟩
    · exact .inr ⟨_, raisedFrom_access _ _ rfl, he⟩
  | stepHL delta =>
    rcases loadThenStepHL_cases delta s with ⟨v, hv, he⟩ | ⟨_, he⟩
    · exact .inl ⟨_, .stepHL hv, he⟩
    · exact .inr ⟨_, raisedFrom_access _ _ rfl, he⟩
  | storeSP a16 =>
    rcases storeWord_cases s.sp a16 s with ⟨t, u, ht, hu, he⟩ | ⟨t, ht, _, he⟩ | ⟨_, he⟩
    · exact .inl ⟨_, .storeSP ht hu, he⟩
    · exact .inr ⟨_, raisedFrom_access _ _ (memWrite_frame ht).halted, he⟩
    · exact .inr ⟨_, raisedFrom_access _ _ rfl, he⟩
  | incAtHL =>
    rcases modifyAtHL_cases incrementValue inc8Flags s with ⟨v, t, hv, ht, he⟩ | ⟨_, he⟩
    · exact .inl ⟨_, .incAtHL hv ht, he⟩
    · exact .inr ⟨_, raisedFrom_access _ _ rfl, he⟩
  | decAtHL =>
    rcases modifyAtHL_cases decrementValue dec8Flags s with ⟨v, t, hv, ht, he⟩ | ⟨_, he⟩
    · exact .inl ⟨_, .decAtHL hv ht, he⟩
    · exact .inr ⟨_, raisedFrom_access _ _ rfl, he⟩
  | jump cond e8 =>
    rcases jumpRelative_cases cond e8 s with ⟨hc, he⟩ | ⟨hc, he⟩ | ⟨what, _, he⟩
    · exact .inl ⟨_, .jumpTaken hc, he⟩
    · exact .inl ⟨_, .jumpNotTaken hc, he⟩
    · exact .inr ⟨_, ⟨_, _, rfl, rfl⟩, he⟩
  | _ => exact .inl ⟨_, by constructor, rfl⟩

theorem completes_run {b : Body} {s t : State} (h : b.Completes s t) : b.run s = .next t := by
  cases h with
  | fromPair read => simp [Body.run, loadFromPair, memRead_ok read]
  | toPair write => simp [Body.run, storeToPair, write]
  | stepHL read => simp only [Body.run, loadThenStepHL, memRead_ok read]; rfl
  | storeSP low high => simp [Body.run, storeWord, low, high]
  | incAtHL read write => simp [Body.run, modifyAtHL, memRead_ok read, write, (memWrite_frame write).f]
  | decAtHL read write => simp [Body.run, modifyAtHL, memRead_ok read, write, (memWrite_frame write).f]
  | jumpTaken holds => simp [Body.run, jumpRelative, holds]
  | jumpNotTaken fails => simp [Body.run, jumpRelative, fails]
  | _ => rfl

/-- The relation is the body's completed runs. -/
theorem run_next_iff {b : Body} {s t : State} : b.run s = .next t ↔ b.Completes s t := by
  refine ⟨fun h => ?_, completes_run⟩
  rcases run_cases b s with ⟨u, hu, he⟩ | ⟨f, _, he⟩
  · cases he.symm.trans h
    exact hu
  · cases he.symm.trans h

theorem exec_next_iff {i : Instr} {s t : State} : exec i s = .next t ↔ (bodyOf i).Completes s t := by
  rw [exec_eq_run, run_next_iff]

theorem exec_fault_raisedFrom {i : Instr} {s : State} {f : Fault} (h : exec i s = .fault f) : RaisedFrom s f := by
  rw [exec_eq_run] at h
  rcases run_cases (bodyOf i) s with ⟨t, _, he⟩ | ⟨g, hg, he⟩
  · cases he.symm.trans h
  · cases he.symm.trans h
    exact hg

/-- A completed step of a fetched instruction is its body's effect on the state past its bytes. -/
theorem step_next_of_fetchInstr {s u t : State} {i : Instr} (hf : fetchInstr s = .ok (i, u)) (h : step s = .next t) :
    s.Enabled ∧ u = s.fetched i.length ∧ exec i u = .next t := by
  obtain ⟨henabled, j, v, hj, hexec⟩ := step_next_iff.1 h
  cases hf.symm.trans hj
  exact ⟨henabled, fetchInstr_ok_state hf, hexec⟩

end Sys2Proof.Machine
end

section
/-! PROOFS. The invariant (O3, O4): 10_state.md R40, R41. -/

namespace Sys2Proof.Machine

theorem construct_inv (mode : JrCarryMode) {busInit : Memory} {cart : Cart} (hm : busInit.wf)
    (hb : ∀ x ∈ busInit, InBuffers x.1) (hi : cart.image.wf) (hc : ∀ x ∈ cart.image, InCart x.1) :
    (State.construct mode busInit cart).Inv := ⟨hm, hb, hi, hc⟩

/-- A body that completes keeps the invariant: it changes memory and cartridge by CPU-side writes alone. -/
theorem completes_inv {b : Body} {s t : State} (hi : s.Inv) (h : b.Completes s t) : t.Inv := by
  cases h with
  | toPair write => exact memWrite_inv hi write
  | storeSP low high => exact memWrite_inv (memWrite_inv hi low) high
  | incAtHL _ write => exact (memWrite_inv (s := s.tick 1) hi write :)
  | decAtHL _ write => exact (memWrite_inv (s := s.tick 1) hi write :)
  | _ => exact (inv_congr (by simp) (by simp)).2 hi

/-- Settles O4: the fetch leaves memory and cartridge alone, and every body keeps the invariant. -/
theorem stepKeepsTheInvariant : Obligations.StepKeepsTheInvariant := by
  intro s t hi h
  obtain ⟨_, i, u, hf, hexec⟩ := step_next_iff.1 h
  have hu : u.Inv := by
    rw [fetchInstr_ok_state hf]
    exact hi
  exact completes_inv hu (exec_next_iff.1 hexec)

/-- Settles O3: the invariant speaks of the two parameters a machine is built from, and `State.reset` lists no byte in either. -/
theorem invariantHoldsAtConstruction : Obligations.InvariantHoldsAtConstruction :=
  ⟨fun mode _ _ => construct_inv mode,
    construct_inv .fault Memory.wf_nil (by simp) Memory.wf_nil (by simp [blankCart])⟩

end Sys2Proof.Machine
end

section
/-! PROOFS. The cycle counter influences nothing (O22): a state with another count, and each stage of a step from it
(40_step_cycle.md R138). -/

namespace Sys2Proof.Machine

/-- The state with the cycle counter `n` further on and nothing else changed. -/
def State.later (s : State) (n : BitVec 64) : State := { s with cycles := s.cycles + n }

section
variable (s : State) (n : BitVec 64)

@[simp] theorem State.later_f : (s.later n).f = s.f := rfl
@[simp] theorem State.later_pc : (s.later n).pc = s.pc := rfl
@[simp] theorem State.later_r8 (r : R8) : (s.later n).r8 r = s.r8 r := by cases r <;> rfl
@[simp] theorem State.later_r16 (p : R16) : (s.later n).r16 p = s.r16 p := by cases p <;> rfl
@[simp] theorem State.later_ea (p : R16) : (s.later n).ea p = s.ea p := by simp [State.ea]
@[simp] theorem busRead_later (addr : Int) : busRead (s.later n) addr = busRead s addr := rfl

/-! Moving the counter on before a write is moving it on after. -/

@[simp] theorem State.later_setFlags (v : Flags) : (s.setFlags v).later n = (s.later n).setFlags v := rfl
@[simp] theorem State.later_setPc (v : Word) : (s.setPc v).later n = (s.later n).setPc v := rfl
@[simp] theorem State.later_halt : s.halt.later n = (s.later n).halt := rfl

@[simp] theorem State.later_setR8 (r : R8) (v : Byte) : (s.setR8 r v).later n = (s.later n).setR8 r v := by
  cases r <;> rfl

@[simp] theorem State.later_setR16 (p : R16) (v : Word) : (s.setR16 p v).later n = (s.later n).setR16 p v := by
  cases p <;> rfl

@[simp] theorem State.later_tick (k : Nat) : (s.tick k).later n = (s.later n).tick k := by
  simp only [State.later, State.tick, BitVec.add_assoc, BitVec.add_comm n]

end

theorem busWrite_later {s t : State} {addr : Int} {v : Byte} (n : BitVec 64) (h : busWrite s addr v = some t) :
    busWrite (s.later n) addr v = some (t.later n) := by
  rcases busWrite_cases h with ⟨hb, rfl⟩ | ⟨hc, rfl⟩
  · exact busWrite_buffer (s.later n) v hb
  · exact busWrite_cart (s.later n) v hc

theorem memWrite_ok_iff {s t : State} {addr : Int} {v : Byte} :
    memWrite s addr v = .ok t ↔ busWrite (s.tick 1) addr v = some t := by
  unfold memWrite
  cases busWrite (s.tick 1) addr v <;> simp

theorem memWrite_later {s t : State} {addr : Int} {v : Byte} (n : BitVec 64) (h : memWrite s addr v = .ok t) :
    memWrite (s.later n) addr v = .ok (t.later n) := by
  rw [memWrite_ok_iff] at *
  simpa using busWrite_later n h

theorem fetchByte_later {s t : State} {v : Byte} (n : BitVec 64) (h : fetchByte s = .ok (v, t)) :
    fetchByte (s.later n) = .ok (v, t.later n) := by
  obtain ⟨hv, rfl⟩ := fetchByte_ok_iff.1 h
  exact fetchByte_ok_iff.2 ⟨hv, by simp⟩

theorem fetchImmediates_later {count : Nat} {s t : State} {bs : Byte × Byte} (n : BitVec 64)
    (h : fetchImmediates count s = .ok (bs, t)) : fetchImmediates count (s.later n) = .ok (bs, t.later n) := by
  match count with
  | 0 =>
    cases h
    rfl
  | 1 =>
    cases h1 : fetchByte s with
    | error f => simp [fetchImmediates, h1] at h
    | ok r1 =>
      simp only [fetchImmediates, h1] at h
      cases h
      simp [fetchImmediates, fetchByte_later n h1]
  | k + 2 =>
    cases h1 : fetchByte s with
    | error f => simp [fetchImmediates, h1] at h
    | ok r1 =>
      cases h2 : fetchByte r1.2 with
      | error f => simp [fetchImmediates, h1, h2] at h
      | ok r2 =>
        simp only [fetchImmediates, h1, h2] at h
        cases h
        simp [fetchImmediates, fetchByte_later n h1, fetchByte_later n h2]

theorem fetchInstr_later {s t : State} {i : Instr} (n : BitVec 64) (h : fetchInstr s = .ok (i, t)) :
    fetchInstr (s.later n) = .ok (i, t.later n) := by
  obtain ⟨op, build, b1, b2, hop, hl, hf, rfl⟩ := fetchInstr_ok h
  have h1 := fetchByte_later n (fetchByte_ok hop)
  rw [s.fetched_one] at h1
  simp [fetchInstr, h1, hl, fetchImmediates_later n hf]

/-- A body that completes does so with any other count, and leaves the same state with the count as far on. -/
theorem completes_later {b : Body} {s t : State} (n : BitVec 64) (h : b.Completes s t) :
    b.Completes (s.later n) (t.later n) := by
  cases h with
  | fromPair read => simpa using Body.Completes.fromPair (s := s.later n) (by simpa using read)
  | toPair write => exact .toPair (by simpa using memWrite_later n write)
  | stepHL read => simpa using Body.Completes.stepHL (s := s.later n) (by simpa using read)
  | storeSP low high => exact .storeSP (memWrite_later n low) (memWrite_later n high)
  | incAtHL read write =>
    simpa using Body.Completes.incAtHL (s := s.later n) (by simpa using read) (by simpa using memWrite_later n write)
  | decAtHL read write =>
    simpa using Body.Completes.decAtHL (s := s.later n) (by simpa using read) (by simpa using memWrite_later n write)
  | jumpTaken holds => simpa using Body.Completes.jumpTaken (s := s.later n) holds
  | jumpNotTaken fails => exact .jumpNotTaken fails
  | nop => exact .nop
  | _ =>
    simp only [State.later_setR8, State.later_setR16, State.later_setFlags, State.later_tick, State.later_halt]
    constructor

/-- Settles O22: the fetch and the body each commute with moving the counter on. -/
theorem cycleCounterInfluencesNothing : Obligations.CycleCounterInfluencesNothing := by
  intro s t n h
  obtain ⟨henabled, i, u, hf, hexec⟩ := step_next_iff.1 h
  exact step_next_iff.2 ⟨henabled, i, u.later n, fetchInstr_later n hf,
    exec_next_iff.2 (completes_later n (exec_next_iff.1 hexec))⟩

end Sys2Proof.Machine
end

section
/-! PROOFS. What a fault leaves (O17): 10_state.md R42, 60_exceptions.md R305 to R307. -/

namespace Sys2Proof.Machine

/-- A state that is not halted and has a fault recorded enables no step (40_step_cycle.md R130). -/
theorem step_of_recorded_fault {s : State} {r : FaultRecord} (hh : s.halted = false) (hf : s.fault = some r) :
    step s = .refused .noStepFaulted := by
  simp [step, State.noStep, hh, hf]

theorem fetchByte_ok_halted {s t : State} {v : Byte} (h : fetchByte s = .ok (v, t)) : t.halted = s.halted := by
  obtain ⟨_, rfl⟩ := fetchByte_ok_iff.1 h
  simp

theorem RaisedFrom.of_halted_eq {s t : State} {f : Fault} (h : RaisedFrom t f) (he : t.halted = s.halted) :
    RaisedFrom s f := by
  obtain ⟨r, u, hf, hu⟩ := h
  exact ⟨r, u, hf, hu.trans he⟩

theorem fetchByte_error_raisedFrom {s : State} {f : Fault} (h : fetchByte s = .error f) : RaisedFrom s f := by
  rcases fetchByte_cases s with ⟨v, _, he⟩ | ⟨_, he⟩
  · cases he.symm.trans h
  · cases he.symm.trans h
    exact raisedFrom_access _ _ rfl

theorem fetchImmediates_error_raisedFrom {count : Nat} {s : State} {f : Fault}
    (h : fetchImmediates count s = .error f) : RaisedFrom s f := by
  match count with
  | 0 => cases h
  | 1 =>
    cases h1 : fetchByte s with
    | error g =>
      simp only [fetchImmediates, h1] at h
      cases h
      exact fetchByte_error_raisedFrom h1
    | ok r1 => simp [fetchImmediates, h1] at h
  | k + 2 =>
    cases h1 : fetchByte s with
    | error g =>
      simp only [fetchImmediates, h1] at h
      cases h
      exact fetchByte_error_raisedFrom h1
    | ok r1 =>
      cases h2 : fetchByte r1.2 with
      | error g =>
        simp only [fetchImmediates, h1, h2] at h
        cases h
        exact (fetchByte_error_raisedFrom h2).of_halted_eq (fetchByte_ok_halted h1)
      | ok r2 => simp [fetchImmediates, h1, h2] at h

theorem fetchInstr_error_raisedFrom {s : State} {f : Fault} (h : fetchInstr s = .error f) : RaisedFrom s f := by
  cases h1 : fetchByte s with
  | error g =>
    simp only [fetchInstr, h1] at h
    cases h
    exact fetchByte_error_raisedFrom h1
  | ok r1 =>
    have hhalted : r1.2.halted = s.halted := fetchByte_ok_halted h1
    cases hl : lookup r1.1 with
    | none =>
      simp only [fetchInstr, h1, hl] at h
      cases h
      exact ⟨_, _, rfl, hhalted⟩
    | some build =>
      cases h2 : fetchImmediates (immediateCount build) r1.2 with
      | error g =>
        simp only [fetchInstr, h1, hl, h2] at h
        cases h
        exact (fetchImmediates_error_raisedFrom h2).of_halted_eq hhalted
      | ok r2 => simp [fetchInstr, h1, hl, h2] at h

/-- A step fails from an enabled state alone, in the fetch or in the body. -/
theorem step_fault_raisedFrom {s : State} {f : Fault} (h : step s = .fault f) : s.Enabled ∧ RaisedFrom s f := by
  rcases step_cases s with ⟨_, r, he⟩ | ⟨henabled, i, u, hf, he⟩ | ⟨henabled, g, hf, he⟩
  · cases he.symm.trans h
  · have hu : u.halted = s.halted := by rw [fetchInstr_ok_state hf, State.fetched_halted]
    exact ⟨henabled, (exec_fault_raisedFrom (he.symm.trans h)).of_halted_eq hu⟩
  · cases he.symm.trans h
    exact ⟨henabled, fetchInstr_error_raisedFrom hf⟩

/-- Settles O17: every fault of a step is raised by `raise`, which records it, from a state that is not halted. -/
theorem faultEndsTheRun : Obligations.FaultEndsTheRun := by
  intro s f h
  obtain ⟨⟨hs, _⟩, r, u, rfl, hu⟩ := step_fault_raisedFrom h
  have hrec : (raise r u).left.fault = some r := by simp
  have hrun : (raise r u).left.halted = false := by simp [hu, hs]
  exact ⟨by simp, hrun, step_of_recorded_fault hrun hrec⟩

end Sys2Proof.Machine
end

section
/-! PROOFS. What completed bodies and steps do to `pc` and `halted` (O20, O21): 10_state.md R28, R34. -/

namespace Sys2Proof.Machine

/-- Only the relative jump writes `pc` in its body. -/
theorem completes_pc {b : Body} {s t : State} (hb : b.tuple.mode ≠ .rel8) (h : b.Completes s t) : t.pc = s.pc := by
  cases h with
  | toPair write => exact (memWrite_frame write).pc
  | storeSP low high => exact (memWrite_frame high).pc.trans (memWrite_frame low).pc
  | incAtHL _ write => exact (memWrite_frame write).pc
  | decAtHL _ write => exact (memWrite_frame write).pc
  | jumpTaken => exact absurd rfl hb
  | _ => simp

/-- Settles O20: the fetch leaves `pc` past the instruction, and a body that is no relative jump leaves it there. -/
theorem pcPassesTheInstruction : Obligations.PcPassesTheInstruction := by
  intro s u t i hf h hmode
  obtain ⟨_, rfl, hexec⟩ := step_next_of_fetchInstr hf h
  rw [tuple_eq_bodyOf_tuple] at hmode
  rw [completes_pc hmode (exec_next_iff.1 hexec), State.fetched_pc]
  simp [BitVec.toNat_add]

/-- No body but that of `STOP` writes `halted`. -/
theorem completes_halted {b : Body} {s t : State} (hb : b ≠ .stop) (h : b.Completes s t) : t.halted = s.halted := by
  cases h with
  | toPair write => exact (memWrite_frame write).halted
  | storeSP low high => exact (memWrite_frame high).halted.trans (memWrite_frame low).halted
  | incAtHL _ write => exact (memWrite_frame write).halted
  | decAtHL _ write => exact (memWrite_frame write).halted
  | stop => exact absurd rfl hb
  | _ => simp

theorem exec_halted {i : Instr} {s t : State} (h : exec i s = .next t) :
    t.halted = if i = .stop then true else s.halted := by
  split
  case isTrue hi =>
    cases exec_next_iff.1 (hi ▸ h)
    rfl
  case isFalse hi => exact completes_halted (mt (bodyOf_eq_stop_iff i).1 hi) (exec_next_iff.1 h)

/-- A completed step leaves `halted` set exactly where it fetched `STOP`. -/
theorem step_halted_iff {s t : State} (h : step s = .next t) :
    t.halted = true ↔ ∃ u, fetchInstr s = .ok (.stop, u) := by
  obtain ⟨⟨hs, _⟩, i, u, hf, hexec⟩ := step_next_iff.1 h
  have hu : u.halted = false := by rw [fetchInstr_ok_state hf, State.fetched_halted, hs]
  simp [exec_halted hexec, hu, hf]

theorem setRegister_halted (s : State) (v : Int) (r : RegisterType) : (s.setRegister v r).halted = s.halted := by
  cases r <;> simp [State.setRegister]

theorem driverCall_halted {call : DriverCall} {s t : State} (h : driverCall call s = .ok t) :
    t.halted = s.halted := by
  cases call with
  | setRegister v r =>
    cases h
    exact setRegister_halted s v r
  | setFlag which v =>
    cases h
    rfl
  | cpuRead addr =>
    rcases memRead_cases s addr with ⟨v, _, he⟩ | ⟨_, he⟩ <;> simp only [driverCall, cpuReadByte, he] at h <;> cases h
    rfl
  | cpuWrite v addr => exact (memWrite_frame h).halted
  | busRead addr =>
    cases he : busRead s addr <;> simp only [driverCall, busReadByte, he] at h <;> cases h
    rfl
  | busWrite v addr =>
    cases he : busWrite s addr (dataPort v) <;> simp only [driverCall, busWriteByte, he] at h <;> cases h
    rcases busWrite_cases he with ⟨_, rfl⟩ | ⟨_, rfl⟩ <;> rfl

/-- Settles O21: construction, bodies, steps and driver calls, each by its own lemma. -/
theorem haltedIsSetByStopAlone : Obligations.HaltedIsSetByStopAlone :=
  ⟨fun _ _ _ => rfl, fun _ _ _ => exec_halted, fun _ _ => step_halted_iff, fun _ _ _ => driverCall_halted⟩

end Sys2Proof.Machine
end

section
/-! PROOFS. What completed bodies do to the registers and the flags (O23, O24): 10_state.md R21, R26, R30. -/

namespace Sys2Proof.Machine

/-- An 8-bit register that neither operand column covers is as before. -/
theorem completes_r8 {b : Body} {s t : State} {r : R8} (hsrc : b.tuple.source.covers r = false)
    (hdst : b.tuple.destination.covers r = false) (h : b.Completes s t) : t.r8 r = s.r8 r := by
  cases h with
  | toPair write => exact (memWrite_frame write).r8 r
  | storeSP low high => exact ((memWrite_frame high).r8 r).trans ((memWrite_frame low).r8 r)
  | incAtHL _ write => simpa using (memWrite_frame write).r8 r
  | decAtHL _ write => simpa using (memWrite_frame write).r8 r
  | _ => simp_all [Body.tuple, OperandField.covers, State.setR8_r8, State.setR16_r8_other]

/-- SP is as before where it is not the destination. -/
theorem completes_sp {b : Body} {s t : State} (hdst : b.tuple.destination ≠ .reg .sp) (h : b.Completes s t) :
    t.sp = s.sp := by
  cases h with
  | toPair write => exact (memWrite_frame write).sp
  | storeSP low high => exact (memWrite_frame high).sp.trans (memWrite_frame low).sp
  | incAtHL _ write => exact (memWrite_frame write).sp
  | decAtHL _ write => exact (memWrite_frame write).sp
  | _ => simp_all [Body.tuple, State.setR16_sp]

/-- Settles O23: what a body writes stands in the columns of its table row. -/
theorem onlyNamedRegistersAreWritten : Obligations.OnlyNamedRegistersAreWritten := by
  intro i s t h
  have hc := exec_next_iff.1 h
  refine ⟨fun r hr => ?_, fun hdst => ?_⟩
  · obtain ⟨hsrc, hdst⟩ := Bool.or_eq_false_iff.1 hr
    rw [tuple_eq_bodyOf_tuple] at hsrc hdst
    exact completes_r8 hsrc hdst hc
  · rw [tuple_eq_bodyOf_tuple] at hdst
    exact completes_sp hdst hc

/-- Settles O24: the flags each body writes, against the row of the effect table for its kind and mode. -/
theorem flagsFollowTheEffectTable : Obligations.FlagsFollowTheEffectTable := by
  intro i s t h
  rw [tuple_eq_bodyOf_tuple]
  have hc := exec_next_iff.1 h
  generalize bodyOf i = b at hc
  cases hc with
  | toPair write => exact (memWrite_frame write).f
  | storeSP low high => exact (memWrite_frame high).f.trans (memWrite_frame low).f
  | addA | addHL => simp [Body.tuple, add8Flags, add16Flags]
  | incR | decR | incAtHL | decAtHL => simp [Body.tuple, inc8Flags, dec8Flags]
  | daa | cpl | scf => simp [Body.tuple, daaFlags, cplFlags, scfFlags]
  | rlca | rrca | rla | rra => simp [Body.tuple, rotateFlags]
  | _ => simp [Body.tuple]

end Sys2Proof.Machine
end

section
/-! PROOFS. Pairs, the flag register and the register cell as the driver sees them (O26 to O29): 10_state.md R22, R24, R25, R27, R31. -/

namespace Sys2Proof.Machine

/-! ### Pairs -/

theorem highByte_eq_ofNat (v : Word) : highByte v = BitVec.ofNat 8 (v.toNat / 256) := by
  apply BitVec.eq_of_toNat_eq
  rw [highByte_toNat, BitVec.toNat_ofNat]
  omega

theorem lowByte_eq_ofNat (v : Word) : lowByte v = BitVec.ofNat 8 v.toNat := by
  apply BitVec.eq_of_toNat_eq
  rw [lowByte_toNat, BitVec.toNat_ofNat]

/-- Masking an integer to the width of the word it becomes changes nothing. -/
theorem ofInt_emod_two_pow (w : Nat) (v : Int) : BitVec.ofInt w (v % 2 ^ w) = BitVec.ofInt w v := by
  apply BitVec.eq_of_toNat_eq
  simp [BitVec.toNat_ofInt]

/-- Settles O26: the views, the writes of both halves, the masking and the round trip. -/
theorem pairsAreViewsOfTheirHalves : Obligations.PairsAreViewsOfTheirHalves := by
  refine ⟨fun s => ?views, fun s v => ?writes, fun s v r hr => ?masked,
    fun h l => ⟨highByte_combine h l, lowByte_combine h l⟩⟩
  case views => exact ⟨combine_toNat .., combine_toNat .., combine_toNat .., combine_toNat ..⟩
  case writes =>
    simp [State.setRegister, State.setR16, State.setR8, State.setFlags, highByte_eq_ofNat, lowByte_eq_ofNat]
  case masked =>
    simp only [List.mem_cons, List.not_mem_nil, or_false] at hr
    rcases hr with rfl | rfl | rfl | rfl <;> simp only [State.setRegister, ofInt_emod_two_pow]

/-! ### The flag register -/

/-- The places of the flags in F. -/
theorem toByte_toNat (f : Flags) :
    f.toByte.toNat = 128 * f.z.toNat + 64 * f.n.toNat + 32 * f.h.toNat + 16 * f.c.toNat := by
  obtain ⟨z, n, h, c⟩ := f
  revert z n h c
  decide

theorem toByte_toNat_mod (f : Flags) : f.toByte.toNat % 16 = 0 := by
  rw [toByte_toNat]
  omega

theorem ofByte_toByte (f : Flags) : Flags.ofByte f.toByte = f := by
  obtain ⟨z, n, h, c⟩ := f
  revert z n h c
  decide

theorem getLsbD_toNat (v : Byte) (k : Nat) : (v.getLsbD k).toNat = v.toNat / 2 ^ k % 2 := by
  rw [← BitVec.testBit_toNat, Nat.toNat_testBit]

/-- A write of F keeps the top nibble. -/
theorem ofByte_toByte_toNat (v : Byte) : (Flags.ofByte v).toByte.toNat = v.toNat / 16 * 16 := by
  have := v.isLt
  simp only [toByte_toNat, Flags.ofByte, getLsbD_toNat]
  omega

theorem af_toNat (s : State) : s.af.toNat = 256 * s.a.toNat + s.f.toByte.toNat := combine_toNat _ _

/-- Settles O27: the four flags stand in bits 7 to 4, so that nothing stands below. -/
theorem flagRegisterLowNibbleReadsZero : Obligations.FlagRegisterLowNibbleReadsZero := by
  refine ⟨fun s => ⟨toByte_toNat_mod s.f, ?_⟩, toByte_toNat, ofByte_toByte_toNat, ofByte_toByte⟩
  have := toByte_toNat_mod s.f
  simp only [State.getRegister, af_toNat]
  omega

/-- A flag after a setter: the value if it is the one set, else as before. -/
theorem get_set (f : Flags) (which other : Flag) (v : Bool) :
    (f.set which v).get other = if other = which then v else f.get other := by
  cases which <;> cases other <;> rfl

/-- Settles O28: a setter is `Flags.set` of one flag, written back as F alone. -/
theorem flagSetterWritesOneFlag : Obligations.FlagSetterWritesOneFlag := by
  refine ⟨fun s => ⟨rfl, rfl, rfl, rfl⟩, fun s which v =>
    ⟨(get_set ..).trans (if_pos rfl), fun other h => (get_set ..).trans (if_neg h), ?_, rfl⟩⟩
  exact (toByte_toNat_mod _).trans (toByte_toNat_mod _).symm

/-! ### The register cell -/

theorem rawSigned_eq (v : Byte) :
    rawSigned v = if v.toNat < 0x80 then (v.toNat : Int) else (v.toNat : Int) - 0x100 := by
  unfold rawSigned
  rw [BitVec.toInt_eq_toNat_cond]
  split <;> split <;> omega

/-- Settles O29: the helpers modulo 2^8, and the signed view by the top bit. -/
theorem registerCellHelpersWrap : Obligations.RegisterCellHelpersWrap :=
  ⟨incrementValue_toNat, decrementValue_toNat, rawSigned_eq⟩

end Sys2Proof.Machine
end

section
/-! PROOFS. The router and the accesses outside the map (O33, O34): 20_memory.md R60 to R64. -/

namespace Sys2Proof.Machine

/-! ### Router -/

/-- No two rows of the region table overlap, so the order of its search does not matter. -/
theorem regionTable_disjoint :
    ∀ x ∈ regionTable, ∀ y ∈ regionTable, x.2.1 ≤ y.2.2 → y.2.1 ≤ x.2.2 → x = y := by decide

theorem regionOf_eq_some_iff {n : Nat} {k : Region} :
    regionOf n = some k ↔ ∃ lo hi, (k, lo, hi) ∈ regionTable ∧ lo ≤ n ∧ n ≤ hi := by
  constructor
  · intro h
    obtain ⟨⟨_, lo, hi⟩, hfind, rfl⟩ := Option.map_eq_some_iff.1 h
    exact ⟨lo, hi, List.mem_of_find?_eq_some hfind, by simpa using List.find?_some hfind⟩
  · rintro ⟨lo, hi, hmem, hlo, hhi⟩
    unfold regionOf
    cases hfind : regionTable.find? fun row => row.2.1 ≤ n && n ≤ row.2.2 with
    | none => exact absurd (by simpa using ⟨hlo, hhi⟩) (List.find?_eq_none.1 hfind _ hmem)
    | some row =>
      have hrow : row.2.1 ≤ n ∧ n ≤ row.2.2 := by simpa using List.find?_some hfind
      have : row = (k, lo, hi) := regionTable_disjoint row (List.mem_of_find?_eq_some hfind) _ hmem
        (hrow.1.trans hhi) (hlo.trans hrow.2)
      rw [this, Option.map_some]

@[simp] theorem route_natCast (n : Nat) : route n = regionOf n := rfl

/-- The router answers a region exactly within the bounds of its row; an address below 0 is within none. -/
theorem route_eq_some_iff {addr : Int} {k : Region} :
    route addr = some k ↔ ∃ lo hi : Nat, (k, lo, hi) ∈ regionTable ∧ lo ≤ addr ∧ addr ≤ hi := by
  cases addr with
  | ofNat n => simp [regionOf_eq_some_iff]
  | negSucc n =>
    refine ⟨nofun, ?_⟩
    rintro ⟨lo, _, _, hlo, _⟩
    omega

/-- Settles O33: the bounds are the rows of the table; within the map a read answers the cartridge's byte or the buffers'. -/
theorem routerFollowsTheRegionTable : Obligations.RouterFollowsTheRegionTable := by
  refine ⟨fun addr => ?table, fun s addr h => ⟨busRead_cart s h, rfl⟩, fun _ _ _ _ h => busRead_buffer _ h⟩
  have hie : addr = 0xFFFF ↔ 0xFFFF ≤ addr ∧ addr ≤ 0xFFFF := by omega
  simp [route_eq_some_iff, regionTable, hie]

/-! ### Outside the map -/

theorem memRead_outside {addr : Int} (s : State) (h : ¬InMap addr) :
    ∃ f, memRead s addr = .error f ∧ FaultsWith s addr .read f :=
  ⟨_, by simp [memRead, busRead_outside s h], faultsWith_raise s addr .read⟩

theorem memWrite_outside {addr : Int} (s : State) (v : Byte) (h : ¬InMap addr) :
    ∃ f, memWrite s addr v = .error f ∧ FaultsWith s addr .write f :=
  ⟨_, by simp [memWrite, busWrite_outside _ v h], faultsWith_raise s addr .write⟩

/-- Outside the map is the gap of 20_memory.md R64, above 0xFFFF or below 0. -/
theorem not_inMap_iff {addr : Int} :
    ¬InMap addr ↔ (0xFEA0 ≤ addr ∧ addr ≤ 0xFEFF) ∨ 0xFFFF < addr ∨ addr < 0 := by
  simp only [InMap]
  omega

/-- Settles O34: an access is refused exactly outside the map, and each refused access is raised as its `AddressError`. -/
theorem addressErrorExactlyOutsideTheMap : Obligations.AddressErrorExactlyOutsideTheMap := by
  intro s addr v
  refine ⟨(busRead_none_iff s addr).trans not_inMap_iff, (busWrite_none_iff s addr v).trans not_inMap_iff, fun h => ?_⟩
  have hout := (busRead_none_iff s addr).1 h
  exact ⟨memRead_outside s hout, memWrite_outside s v hout⟩

end Sys2Proof.Machine
end

section
/-! PROOFS. What an access reads, stores and leaves (O31, O35 to O37): 20_memory.md R63, R65, R68, R76, R86. A bus write is a CPU-side
write without its cycle, so the laws of `memWrite` serve both. -/

namespace Sys2Proof.Machine

/-! ### Stores -/

theorem busWrite_isSome {addr : Int} (s : State) (v : Byte) (h : InMap addr) : ∃ t, busWrite s addr v = some t :=
  Option.ne_none_iff_exists'.1 fun hn => (busWrite_none_iff s addr v).1 hn h

/-- The CPU-side write is the bus write and one cycle. -/
theorem memWrite_of_busWrite {s t : State} {addr : Int} {v : Byte} (h : busWrite s addr v = some t) :
    memWrite s addr v = .ok (t.later 1) :=
  memWrite_ok_iff.2 (busWrite_later 1 h)

theorem memWrite_sameMemoryExcept {s t : State} {addr : Int} {v : Byte} (h : memWrite s addr v = .ok t) :
    SameMemoryExcept s t [addr] := by
  refine ⟨fun other ho hne => memWrite_other h ho (by simpa using hne), ?_⟩
  rintro (hnot | hrom)
  · rcases memWrite_ok_cases h with ⟨_, rfl⟩ | ⟨hc, _⟩
    · rfl
    · exact absurd hc (hnot addr (by simp))
  · exact (memWrite_frame h).romOnly hrom

/-- Settles O35: through the CPU-side write, which differs in its cycle alone. -/
theorem bufferBytesReadBackWhatWasWritten : Obligations.BufferBytesReadBackWhatWasWritten := by
  intro s t addr v hi h
  have hw := memWrite_of_busWrite h
  exact ⟨fun hb => by simpa using memWrite_same hi.1 hw hb, fun _ ho hne => by simpa using memWrite_other hw ho hne⟩

/-- Settles O37: the fetch reads at `pc`, which the store leaves, the byte the store put there. -/
theorem storeIsSeenByTheNextFetch : Obligations.StoreIsSeenByTheNextFetch := by
  intro s t v hi hb h
  have hread : busRead t t.pc.toNat = some v := by
    rw [(memWrite_frame h).pc]
    exact memWrite_same hi.1 h hb
  exact fetchByte_ok hread

/-! ### A ROM-only cartridge -/

/-- A body that completes changes the cartridge by CPU-side writes alone, so one that is ROM-only not at all. -/
theorem completes_cart {b : Body} {s t : State} (hrom : s.cart.romOnly = true) (h : b.Completes s t) :
    t.cart = s.cart := by
  cases h with
  | toPair write => exact (memWrite_frame write).romOnly hrom
  | storeSP low high =>
    have hlow := (memWrite_frame low).romOnly hrom
    exact ((memWrite_frame high).romOnly (hlow ▸ hrom)).trans hlow
  | incAtHL _ write | decAtHL _ write => exact (memWrite_frame write).romOnly hrom
  | _ => simp

theorem step_cart {s t : State} (hrom : s.cart.romOnly = true) (h : step s = .next t) : t.cart = s.cart := by
  obtain ⟨_, i, u, hf, hexec⟩ := step_next_iff.1 h
  rw [fetchInstr_ok_state hf] at hexec
  exact completes_cart (s := s.fetched i.length) hrom (exec_next_iff.1 hexec)

/-- Settles O36: the write gate discards the write, and a step reaches the cartridge through the gate alone. -/
theorem romOnlyCartridgeDiscardsWrites : Obligations.RomOnlyCartridgeDiscardsWrites := by
  refine ⟨fun s addr v hrom hc => ?write, fun s t hrom h => ?step⟩
  case write =>
    have hw : busWrite s addr v = some s := by rw [busWrite_cart s v hc, cart_write_romOnly hrom]
    exact ⟨hw, memWrite_of_busWrite hw⟩
  case step =>
    have hcart := step_cart hrom h
    exact ⟨hcart, fun addr hc => by rw [busRead_cart t hc, busRead_cart s hc, hcart]⟩

/-! ### The pass-through accesses -/

/-- Settles O31: reads and failures as the bus answers them; a write as the bus write `t`, whose frame is that of the CPU-side
write less its cycle. -/
theorem passThroughCostsOneCycle : Obligations.PassThroughCostsOneCycle := by
  refine ⟨fun s addr v h => ⟨memRead_ok h, by simp [busReadByte, h]⟩, fun s v addr hm => ?write,
    fun s v addr hn => ⟨memRead_outside s hn, memWrite_outside s _ hn, ?readFails, ?writeFails⟩⟩
  case write =>
    obtain ⟨t, ht⟩ := busWrite_isSome s (dataPort v) hm
    have hw := memWrite_of_busWrite ht
    have frame := memWrite_frame hw
    have hcycles : t.cycles = s.cycles := by simpa [State.later] using frame.cycles
    exact ⟨t, ht, by simp [busWriteByte, ht], hcycles ▸ hw, fun hi hb => by simpa [dataPort] using memWrite_same hi.1 hw hb,
      (memWrite_sameMemoryExcept hw :), fun r _ => frame.r8 r, frame.f, frame.sp, frame.pc, hcycles,
      frame.halted, frame.fault, frame.jrCarryMode⟩
  case readFails => simp [busReadByte, busRead_outside s hn, raise, State.record]
  case writeFails => simp [busWriteByte, busWrite_outside s _ hn, raise, State.record]

end Sys2Proof.Machine
end

section
/-! PROOFS. The decoder and the encoder as inverses, the absent opcodes, and the rows of the table (O6 to O11): 30_encoding.md R100 to R107. -/

namespace Sys2Proof

/-! ### Decoding and encoding -/

/-- The opcode of every instruction has an entry that builds the instruction from immediate bytes (30_encoding.md R103): one group
of constructors for each number of those bytes. -/
theorem lookup_opcode (i : Instr) : Laws.Shape.Statement i := by
  cases i with
  | ldBC_d16 | ldDE_d16 | ldHL_d16 | ldSP_d16 | ldAtA16_SP => exact Laws.Shape.of_word rfl
  | ldA_d8 | ldB_d8 | ldC_d8 | ldD_d8 | ldE_d8 | ldH_d8 | ldL_d8 | jr | jrNZ | jrZ | jrNC | jrC =>
    exact Laws.Shape.of_byte rfl
  | _ => exact Laws.Shape.of_no_immediate rfl

/-- An opcode with an entry, followed by the immediate bytes the entry asks for, decodes to what the entry builds: the decoder puts
0 for a byte it does not read, and the entry does not read it either. -/
theorem decode_of_lookup {op : Byte} {build : Byte → Byte → Instr} (h : lookup op = some build) (b1 b2 : Byte)
    (rest : List Byte) :
    decode (op :: ([b1, b2].take (immediateCount build) ++ rest)) = .ok (build b1 b2, rest) := by
  have hle := immediateCount_le h
  obtain hn | hn | hn : immediateCount build = 0 ∨ immediateCount build = 1 ∨ immediateCount build = 2 := by omega
  · have hbuild : build b1 b2 = build 0 0 := lookup_build_congr h (by simp [hn])
    simp [decode, h, hn, hbuild]
  · have hbuild : build b1 b2 = build b1 0 := lookup_build_congr h (by simp [hn])
    simp [decode, h, hn, hbuild]
  · simp [decode, h, hn]

/-- Bytes that decode are an opcode with an entry, the immediate bytes the entry asks for, and the rest. -/
theorem exists_lookup_of_decode {bytes rest : List Byte} {i : Instr} (h : decode bytes = .ok (i, rest)) :
    ∃ op build b1 b2, lookup op = some build ∧ build b1 b2 = i ∧
      bytes = op :: ([b1, b2].take (immediateCount build) ++ rest) := by
  unfold decode at h
  split at h
  case h_1 => cases h
  case h_2 op tail =>
    split at h
    case h_1 => cases h
    case h_2 build hl =>
      split at h <;> cases h
      case h_1 hn => exact ⟨op, build, 0, 0, hl, rfl, by simp [hn]⟩
      case h_2 b1 hn => exact ⟨op, build, b1, 0, hl, rfl, by simp [hn]⟩
      case h_3 b1 b2 hn => exact ⟨op, build, b1, b2, hl, rfl, by simp [hn]⟩

/-- Settles O6: the entry under the instruction's own opcode takes back the immediate bytes the encoder wrote. -/
theorem decodingAnEncodingGivesTheInstruction : Obligations.DecodingAnEncodingGivesTheInstruction := by
  intro i rest
  obtain ⟨build, hl, b1, b2, hi⟩ := lookup_opcode i
  have henc : encode i = i.opcode :: [b1, b2].take (immediateCount build) := hi ▸ lookup_encode hl b1 b2
  rw [henc, List.cons_append, decode_of_lookup hl, hi]

/-- Settles O7: the encoder writes the opcode and the immediate bytes that the decoder took. -/
theorem decodedBytesAreTheEncoding : Obligations.DecodedBytesAreTheEncoding := by
  intro bytes rest i h
  obtain ⟨op, build, b1, b2, hl, rfl, rfl⟩ := exists_lookup_of_decode h
  rw [lookup_encode hl, List.cons_append]

/-! ### Absent opcodes -/

theorem lookup_eq_none_iff {op : Byte} : lookup op = none ↔ op.toNat ∉ opcodeTable.map fun row => row.1.toNat := by
  simp [lookup, ← BitVec.toNat_inj]

/-- The opcodes with an entry, row by row of the grid of 30_encoding.md R106. -/
theorem opcodeTable_opcodes : (opcodeTable.map fun row => row.1.toNat) =
    List.range' 0x00 16 ++ List.range' 0x10 16 ++ ([0x20, 0x21] ++ List.range' 0x23 13) ++
      ([0x30, 0x31] ++ List.range' 0x33 3 ++ List.range' 0x37 8) ++ List.range' 0x40 16 ++ List.range' 0x50 16 ++
      List.range' 0x60 16 ++ (List.range' 0x70 6 ++ List.range' 0x77 9) ++ (List.range' 0x80 6 ++ [0x87]) ++ [0xF9] := by
  simp only [opcodeTable, List.map_append]
  rfl

/-- The opcodes 30_encoding.md R107 lists: six single bytes, and the runs before and after 0xF9. -/
def absentOpcodes : List Nat :=
  [0x22, 0x32, 0x36, 0x3F, 0x76, 0x86] ++ (List.range' 0x88 113 ++ List.range' 0xFA 6)

theorem mem_absentOpcodes_iff {n : Nat} : n ∈ absentOpcodes ↔
    n ∈ [0x22, 0x32, 0x36, 0x3F, 0x76, 0x86] ∨ (0x88 ≤ n ∧ n ≤ 0xF8) ∨ (0xFA ≤ n ∧ n ≤ 0xFF) := by
  simp only [absentOpcodes, List.mem_append, List.mem_range'_1, List.mem_cons, List.not_mem_nil, or_false]
  omega

theorem absentOpcodes_nodup : absentOpcodes.Nodup := by
  have hruns : (List.range' 0x88 113 ++ List.range' 0xFA 6).Nodup := by
    refine List.Nodup.append List.nodup_range' List.nodup_range' (List.disjoint_left.2 fun n => ?_)
    simp only [List.mem_range'_1]
    omega
  refine List.Nodup.append (by decide) hruns (List.disjoint_left.2 fun n => ?_)
  simp only [List.mem_cons, List.not_mem_nil, or_false, List.mem_append, List.mem_range'_1]
  omega

theorem lookup_eq_none_iff_mem_absentOpcodes {op : Byte} : lookup op = none ↔ op.toNat ∈ absentOpcodes := by
  have := op.isLt
  rw [lookup_eq_none_iff, opcodeTable_opcodes, mem_absentOpcodes_iff]
  simp only [List.mem_append, List.mem_range'_1, List.mem_cons, List.not_mem_nil, or_false]
  omega

/-- The search through all 256 bytes finds the listed opcodes, each once. -/
theorem filter_lookup_perm_absentOpcodes :
    ((List.range 256).filter fun n => (lookup (BitVec.ofNat 8 n)).isNone).Perm absentOpcodes := by
  refine (List.perm_ext_iff_of_nodup (List.nodup_range.filter _) absentOpcodes_nodup).2 fun n => ?_
  have hlt : n ∈ absentOpcodes → n < 256 := by
    rw [mem_absentOpcodes_iff]
    simp only [List.mem_cons, List.not_mem_nil, or_false]
    omega
  have hlookup : n < 256 → (lookup (BitVec.ofNat 8 n) = none ↔ n ∈ absentOpcodes) := fun h => by
    rw [lookup_eq_none_iff_mem_absentOpcodes, BitVec.toNat_ofNat, Nat.mod_eq_of_lt h]
  rw [List.mem_filter, List.mem_range, Option.isNone_iff_eq_none]
  exact ⟨fun ⟨h, hnone⟩ => (hlookup h).1 hnone, fun h => ⟨hlt h, (hlookup (hlt h)).2 h⟩⟩

/-- Settles O8: the list of R107, and its length. -/
theorem absentOpcodesAreTheListedOnes : Obligations.AbsentOpcodesAreTheListedOnes :=
  ⟨fun _ => lookup_eq_none_iff_mem_absentOpcodes.trans mem_absentOpcodes_iff,
    filter_lookup_perm_absentOpcodes.length_eq⟩

/-! ### Opcodes and words written out -/

/-- Settles O9: a family register by register, its 16-bit immediates as low and high byte. -/
theorem opcodesFollowTheRegisterCode : Obligations.OpcodesFollowTheRegisterCode := by
  refine ⟨fun dst src => ?loadReg, fun r _ => ?loadImm8, fun r => ?loadAtHL, fun r => ?storeAtHL, fun r => ?addA,
    fun r => ?incReg, fun r => ?decReg, fun p d16 => ?loadImm16, fun p => ?incPair, fun p => ?addHL, fun p => ?decPair,
    fun a16 => ?storeSP, rfl, rfl, rfl, rfl, rfl, rfl, rfl, rfl, rfl, rfl, rfl, rfl, rfl, rfl, rfl, rfl,
    fun _ => ⟨rfl, rfl, rfl, rfl, rfl⟩, rfl, rfl⟩
  case loadReg => cases dst <;> cases src <;> rfl
  case loadImm8 | loadAtHL | storeAtHL | addA | incReg | decReg => cases r <;> rfl
  case incPair | addHL | decPair => cases p <;> rfl
  case loadImm16 =>
    rw [← Machine.lowByte_eq_ofNat, ← Machine.highByte_eq_ofNat]
    cases p <;> rfl
  case storeSP =>
    rw [← Machine.lowByte_eq_ofNat, ← Machine.highByte_eq_ofNat]
    rfl

/-- Settles O10: the decoder run on each word. -/
theorem wordsWrittenOutDecode : Obligations.WordsWrittenOutDecode := by
  unfold Obligations.WordsWrittenOutDecode
  and_intros <;> rfl

/-! ### Rows -/

/-- An instruction's bytes are its opcode and its mode's immediates (30_encoding.md R100). -/
theorem encode_length (i : Instr) : (encode i).length = i.tuple.mode.immBytes + 1 := by
  obtain ⟨build, hl, b1, b2, hi⟩ := lookup_opcode i
  rw [← hi, lookup_encode hl, lookup_immBytes hl]
  simp [immediateCount_le hl]

theorem Instr.wellFormed (i : Instr) : i.WellFormed := by cases i <;> rfl

/-- A tuple the operation bodies support holds no constant immediate (log 26). -/
theorem Tuple.immediate_eq_none {t : Tuple} (h : t.wf = true) : t.immediate = none := by
  have hfits : t.immediateFits = true := (Bool.and_eq_true_iff.1 h).2
  exact Option.isNone_iff_eq_none.1 hfits

/-- Settles O11: the check runs row by row; the lengths and the absent constant follow from the mode and the check. -/
theorem tableRowsAreWellFormedAndSized : Obligations.TableRowsAreWellFormedAndSized := by
  intro i
  have hlen : i.length = i.tuple.mode.immBytes + 1 := length_eq_immBytes _
  exact ⟨i.wellFormed, (encode_length i).trans hlen.symm, hlen.trans (Nat.add_comm _ _), immBytes_le _,
    Tuple.immediate_eq_none i.wellFormed⟩

end Sys2Proof
end

section
/-! PROOFS. Where a step is refused, and the fetch of the opcode (O13, O14): 40_step_cycle.md R130, R131. -/

namespace Sys2Proof.Machine

/-- A body completes or raises a fault; it never refuses. -/
theorem exec_ne_refused (i : Instr) (s : State) (r : Refusal) : exec i s ≠ .refused r := by
  rw [exec_eq_run]
  rcases run_cases (bodyOf i) s with ⟨t, _, he⟩ | ⟨f, _, he⟩ <;> simp [he]

/-- Settles O13: of what a step can do, only the step of a core that is not enabled is a refusal. -/
theorem stepIsRefusedExactlyWhenNotEnabled : Obligations.StepIsRefusedExactlyWhenNotEnabled := by
  refine ⟨fun s => ?_, exec_ne_refused⟩
  rcases step_cases s with ⟨hs, hr⟩ | ⟨hs, i, u, _, he⟩ | ⟨hs, f, _, he⟩
  · exact iff_of_true hr hs
  · exact iff_of_false (fun ⟨r, hr⟩ => exec_ne_refused i u r (he.symm.trans hr)) (not_not_intro hs)
  · exact iff_of_false (fun ⟨r, hr⟩ => nomatch he.symm.trans hr) (not_not_intro hs)

theorem fetchByte_outside {s : State} (h : ¬InMap s.pc.toNat) :
    ∃ f, fetchByte s = .error f ∧ FaultsWith s s.pc.toNat .read f := by
  obtain ⟨f, he, hf⟩ := memRead_outside s h
  exact ⟨f, by simp [fetchByte, he], hf⟩

theorem fetchInstr_of_fetchByte_error {s : State} {f : Fault} (h : fetchByte s = .error f) :
    fetchInstr s = .error f := by
  simp [fetchInstr, h]

theorem step_of_fetchInstr_ok {s u : State} {i : Instr} (hs : s.Enabled) (h : fetchInstr s = .ok (i, u)) :
    step s = exec i u := by
  simp [step, (noStep_eq_none_iff s).2 hs, h]

theorem step_of_fetchInstr_error {s : State} {f : Fault} (hs : s.Enabled) (h : fetchInstr s = .error f) :
    step s = .fault f := by
  simp [step, (noStep_eq_none_iff s).2 hs, h]

/-- Settles O14: the fetch of one byte, which is the step's first access. -/
theorem opcodeFetchReadsThenAdvances : Obligations.OpcodeFetchReadsThenAdvances := by
  intro s
  refine ⟨fun op hop => ⟨s.fetched 1, fetchByte_ok hop, BitVec.toNat_add .., rfl⟩, fun hnone => ?_⟩
  obtain ⟨f, he, hf⟩ := fetchByte_outside ((busRead_none_iff s _).1 hnone)
  exact ⟨⟨f, he, hf⟩, fun hs => ⟨f, step_of_fetchInstr_error hs (fetchInstr_of_fetchByte_error he), hf⟩⟩

end Sys2Proof.Machine
end

section
/-! PROOFS. The fetch of an instruction whose bytes stand at `pc`, in whole or up to one that no region holds (O12, O16):
40_step_cycle.md R131 to R134, R139, 60_exceptions.md R308. -/

namespace Sys2Proof.Machine

/-- The first `n` bytes at `pc` are the first `n` of `i`. -/
def BytesAtPc (s : State) (i : Instr) (n : Nat) : Prop :=
  ∀ j, j < n → busRead s (s.fetched j).pc.toNat = (encode i)[j]?

theorem State.fetched_zero (s : State) : s.fetched 0 = s := by simp [State.fetched]

/-- Where the opcode of `i` and `n` bytes more of it stand at `pc`, the opcode has an entry that builds `i` from two bytes, and the
`n` bytes are the first of those two. -/
theorem BytesAtPc.entry {s : State} {i : Instr} {n : Nat} (h : BytesAtPc s i (n + 1)) (hn : n < i.length) :
    ∃ build b1 b2, lookup i.opcode = some build ∧ build b1 b2 = i ∧ i.length = immediateCount build + 1 ∧
      busRead s s.pc.toNat = some i.opcode ∧
      ∀ j, j < n → busRead s (s.fetched (j + 1)).pc.toNat = [b1, b2][j]? := by
  obtain ⟨build, hl, b1, b2, hi⟩ := lookup_opcode i
  have henc : encode i = i.opcode :: [b1, b2].take (immediateCount build) := hi ▸ lookup_encode hl b1 b2
  have hlen : i.length = immediateCount build + 1 := by
    rw [← lookup_immBytes hl b1 b2, hi]
    exact length_eq_immBytes _
  have hop : busRead s s.pc.toNat = some i.opcode := by simpa [henc] using h 0 n.succ_pos
  refine ⟨build, b1, b2, hl, hi, hlen, hop, fun j hj => ?_⟩
  have hcount : j < immediateCount build := by omega
  simpa [henc, hcount] using h (j + 1) (Nat.succ_lt_succ hj)

/-! ### Bytes within the map -/

theorem fetchByte_fetched {s : State} {n : Nat} {v : Byte} (h : busRead s (s.fetched n).pc.toNat = some v) :
    fetchByte (s.fetched n) = .ok (v, s.fetched (n + 1)) := by
  rw [← s.fetched_succ n]
  exact fetchByte_ok h

/-- After an opcode with an entry the fetch is that of the immediates the entry asks for. -/
theorem fetchInstr_of_opcode {s : State} {op : Byte} {build : Byte → Byte → Instr}
    (hop : busRead s s.pc.toNat = some op) (hl : lookup op = some build) :
    fetchInstr s =
      (fetchImmediates (immediateCount build) (s.fetched 1)).map fun r => (build r.1.1 r.1.2, r.2) := by
  have h1 : fetchByte s = .ok (op, s.fetched 1) := fetchByte_ok hop
  cases hf : fetchImmediates (immediateCount build) (s.fetched 1) <;> simp [fetchInstr, h1, hl, hf, Except.map]

/-- The operand fetch answers the bytes past the opcode, as many as it is asked for. -/
theorem fetchImmediates_fetched {s : State} {count : Nat} {b1 b2 : Byte} (hle : count ≤ 2)
    (h : ∀ j, j < count → busRead s (s.fetched (j + 1)).pc.toNat = [b1, b2][j]?) :
    ∃ c1 c2, fetchImmediates count (s.fetched 1) = .ok ((c1, c2), s.fetched (count + 1)) ∧
      [c1, c2].take count = [b1, b2].take count := by
  match count with
  | 0 => exact ⟨0, 0, rfl, rfl⟩
  | 1 =>
    have h1 := fetchByte_fetched (h 0 (by omega))
    exact ⟨b1, 0, by simp [fetchImmediates, h1], rfl⟩
  | 2 =>
    have h1 := fetchByte_fetched (h 0 (by omega))
    have h2 := fetchByte_fetched (h 1 (by omega))
    exact ⟨b1, b2, by simp [fetchImmediates, h1, h2], rfl⟩

/-- Where all the bytes of `i` stand at `pc`, they are fetched and counted, and are `i`. -/
theorem fetchInstr_of_bytesAtPc {s : State} {i : Instr} (h : BytesAtPc s i i.length) :
    fetchInstr s = .ok (i, s.fetched i.length) := by
  have hlen : i.length = i.tuple.mode.immBytes + 1 := length_eq_immBytes _
  obtain ⟨build, b1, b2, hl, hi, hcount, hop, himm⟩ := (hlen ▸ h).entry (by omega)
  obtain ⟨c1, c2, hf, hc⟩ := fetchImmediates_fetched (immediateCount_le hl) (b1 := b1) (b2 := b2)
    fun j hj => himm j (by omega)
  have hbuild : build c1 c2 = i := (lookup_build_congr hl hc).trans hi
  rw [fetchInstr_of_opcode hop hl, hf, hcount, ← hbuild]
  rfl

/-- Settles O12: bytes that decode are the encoding of what they decode to, which the fetch answers. -/
theorem stepRunsTheDecodedInstruction : Obligations.StepRunsTheDecodedInstruction := by
  intro s bytes rest i hs hdecode h
  refine step_of_fetchInstr_ok hs (fetchInstr_of_bytesAtPc fun j hj => (h j hj).trans ?_)
  have hlen : (encode i).length = i.length := (encode_length i).trans (length_eq_immBytes _).symm
  rw [decodedBytesAreTheEncoding bytes rest i hdecode, List.getElem?_append_left (by omega)]

/-! ### A byte outside the map -/

theorem fetchImmediates_of_fetchByte_error {s : State} {count : Nat} {f : Fault} (hcount : count ≠ 0)
    (h : fetchByte s = .error f) : fetchImmediates count s = .error f := by
  match count with
  | 1 | k + 2 => simp [fetchImmediates, h]

/-- The operand fetch fails at its first byte outside the map, the bytes before it fetched. -/
theorem fetchImmediates_outside {s : State} {count j : Nat} {b1 b2 : Byte} (hle : count ≤ 2) (hj : j < count)
    (h : ∀ m, m < j → busRead s (s.fetched (m + 1)).pc.toNat = [b1, b2][m]?)
    (hout : ¬InMap (s.fetched (j + 1)).pc.toNat) :
    ∃ f, fetchImmediates count (s.fetched 1) = .error f ∧
      FaultsWith (s.fetched (j + 1)) (s.fetched (j + 1)).pc.toNat .read f := by
  obtain ⟨f, he, hf⟩ := fetchByte_outside hout
  refine ⟨f, ?_, hf⟩
  obtain rfl | ⟨rfl, rfl⟩ : j = 0 ∨ count = 2 ∧ j = 1 := by omega
  · exact fetchImmediates_of_fetchByte_error (by omega) he
  · have h1 := fetchByte_fetched (h 0 (by omega))
    simp [fetchImmediates, h1, he]

/-- Where the bytes of `i` before byte `k` stand at `pc` and byte `k` is outside the map, the fetch fails there. -/
theorem fetchInstr_outside {s : State} {i : Instr} {k : Nat} (hk : k < i.length) (h : BytesAtPc s i k)
    (hout : ¬InMap (s.fetched k).pc.toNat) :
    ∃ f, fetchInstr s = .error f ∧ FaultsWith (s.fetched k) (s.fetched k).pc.toNat .read f := by
  cases k with
  | zero =>
    rw [s.fetched_zero] at hout ⊢
    obtain ⟨f, he, hf⟩ := fetchByte_outside hout
    exact ⟨f, fetchInstr_of_fetchByte_error he, hf⟩
  | succ j =>
    obtain ⟨build, b1, b2, hl, _, hcount, hop, himm⟩ := h.entry (by omega)
    obtain ⟨f, he, hf⟩ := fetchImmediates_outside (immediateCount_le hl) (by omega) himm hout
    exact ⟨f, by rw [fetchInstr_of_opcode hop hl, he]; rfl, hf⟩

/-- Settles O16: the step fails in its fetch. -/
theorem fetchFaultLeavesEarlierBytesFetched : Obligations.FetchFaultLeavesEarlierBytesFetched := by
  intro s i k hs hk h hout
  obtain ⟨f, he, hf⟩ := fetchInstr_outside hk h hout
  exact ⟨f, step_of_fetchInstr_error hs he, hf⟩

end Sys2Proof.Machine
end

section
/-! PROOFS. The cycle totals of completed steps (O19): 40_step_cycle.md R136, R137. -/

namespace Sys2Proof.Machine

/-- A body that completes has its condition evaluated, and the total of its table row is its bytes and what the body counts. -/
theorem completes_cycles {b : Body} {s t : State} (h : b.Completes s t) :
    ∃ taken k, evalCond s.jrCarryMode s.f b.tuple.condition = .ok taken ∧ t.cycles = s.cycles + BitVec.ofNat 64 k ∧
      b.tuple.kind.cycleTotal taken b.tuple.mode = b.tuple.mode.format.length + k := by
  cases h with
  | pair | fromPair | addHL | incP | decP => exact ⟨true, 1, rfl, by simp, rfl⟩
  | toPair write => exact ⟨true, 1, rfl, (memWrite_frame write).cycles, rfl⟩
  | stepHL =>
    refine ⟨true, 2, rfl, by simp [BitVec.add_assoc], ?_⟩
    simp only [Body.tuple]
    split <;> rfl
  | storeSP low high =>
    exact ⟨true, 2, rfl, by simp [(memWrite_frame high).cycles, (memWrite_frame low).cycles, BitVec.add_assoc], rfl⟩
  | incAtHL _ write | decAtHL _ write =>
    exact ⟨true, 2, rfl, by simp [(memWrite_frame write).cycles, BitVec.add_assoc], rfl⟩
  | jumpTaken holds => exact ⟨true, 1, holds, rfl, rfl⟩
  | jumpNotTaken fails => exact ⟨false, 0, fails, by simp, rfl⟩
  | _ => exact ⟨true, 0, rfl, by simp, rfl⟩

/-- Settles O19: the fetch counts the instruction's bytes, the body the rest of the total. -/
theorem cycleTotalsFollowTheTable : Obligations.CycleTotalsFollowTheTable := by
  intro s u t i hf h
  obtain ⟨_, rfl, hexec⟩ := step_next_of_fetchInstr hf h
  obtain ⟨taken, k, hcond, hcycles, htotal⟩ := completes_cycles (exec_next_iff.1 hexec)
  rw [← tuple_eq_bodyOf_tuple] at hcond htotal
  calc t.cycles = s.cycles + BitVec.ofNat 64 (i.length + k) := by
        rw [hcycles, State.fetched_cycles, BitVec.add_assoc, BitVec.ofNat_add]
    _ = s.cycles + BitVec.ofNat 64 (i.tuple.kind.cycleTotal taken i.tuple.mode) := by rw [htotal, Instr.length]
    _ = _ := by
        rw [hcond]
        cases taken <;> rfl

end Sys2Proof.Machine
end

section
/-! PROOFS. No load writes or reads a flag (O25): 41_loads.md R163. Each stage of a load commutes with a write of the flags. -/

namespace Sys2Proof.Machine

section
variable (s : State) (g : Flags)

@[simp] theorem State.setFlags_ea (p : R16) : (s.setFlags g).ea p = s.ea p := by simp [State.ea]

theorem State.setR8_setFlags (r : R8) (v : Byte) : (s.setR8 r v).setFlags g = (s.setFlags g).setR8 r v := by
  cases r <;> rfl

theorem State.setR16_setFlags (p : R16) (v : Word) : (s.setR16 p v).setFlags g = (s.setFlags g).setR16 p v := by
  cases p <;> rfl

theorem State.tick_setFlags (n : Nat) : (s.tick n).setFlags g = (s.setFlags g).tick n := rfl

end

theorem memWrite_setFlags {s t : State} {addr : Int} {v : Byte} (g : Flags) (h : memWrite s addr v = .ok t) :
    memWrite (s.setFlags g) addr v = .ok (t.setFlags g) := by
  rw [memWrite_ok_iff] at *
  rcases busWrite_cases h with ⟨hb, rfl⟩ | ⟨hc, rfl⟩
  · exact busWrite_buffer _ v hb
  · exact busWrite_cart _ v hc

/-- A load that completes does so with any other flags, and leaves the same state with those. -/
theorem completes_setFlags_of_load {b : Body} {s t : State} (g : Flags) (hk : b.tuple.kind = .ld)
    (h : b.Completes s t) : b.Completes (s.setFlags g) (t.setFlags g) := by
  cases h with
  | imm8 =>
    rw [State.setR8_setFlags]
    exact .imm8
  | imm16 =>
    rw [State.setR16_setFlags]
    exact .imm16
  | reg =>
    rw [State.setR8_setFlags]
    simpa using Body.Completes.reg (s := s.setFlags g)
  | pair =>
    rw [State.tick_setFlags, State.setR16_setFlags]
    simpa using Body.Completes.pair (s := s.setFlags g)
  | fromPair read =>
    rw [State.setR8_setFlags, State.tick_setFlags]
    exact .fromPair (by simpa using read)
  | toPair write => exact .toPair (by simpa using memWrite_setFlags g write)
  | stepHL read =>
    rw [State.tick_setFlags, State.setR16_setFlags, State.setR8_setFlags, State.tick_setFlags]
    simpa using Body.Completes.stepHL (s := s.setFlags g) (by simpa using read)
  | storeSP low high => exact .storeSP (memWrite_setFlags g low) (memWrite_setFlags g high)
  | _ => cases hk

theorem exec_load_f {i : Instr} {s t : State} (hk : i.tuple.kind = .ld) (h : exec i s = .next t) : t.f = s.f := by
  simpa only [hk] using flagsFollowTheEffectTable i s t h

/-- Settles O25: a load leaves the flags by the effect table, and commutes with a write of them. -/
theorem loadsNeitherWriteNorReadFlags : Obligations.LoadsNeitherWriteNorReadFlags := by
  intro i s t g hk h
  have hbody : (bodyOf i).tuple.kind = .ld := tuple_eq_bodyOf_tuple i ▸ hk
  exact ⟨exec_load_f hk h, exec_next_iff.2 (completes_setFlags_of_load g hbody (exec_next_iff.1 h))⟩

end Sys2Proof.Machine
end

section
/-! PROOFS. The frames of completed bodies, in the terms of the statements: control, cycles, memory and registers. -/

namespace Sys2Proof.Machine

/-! ### Control and cycles -/

theorem WriteFrame.control {s t : State} (h : WriteFrame s t) : SameControl s t := ⟨h.halted, h.fault, h.jrCarryMode⟩

theorem SameControl.trans {s t u : State} (h : SameControl s t) (h' : SameControl t u) : SameControl s u := by
  obtain ⟨hhalted, hfault, hmode⟩ := h
  obtain ⟨hhalted', hfault', hmode'⟩ := h'
  exact ⟨hhalted'.trans hhalted, hfault'.trans hfault, hmode'.trans hmode⟩

/-- No completed body but that of `STOP` touches `halted`, the fault record or the parameter. -/
theorem completes_control {b : Body} {s t : State} (hb : b ≠ .stop) (h : b.Completes s t) : SameControl s t := by
  cases h with
  | toPair write => exact (memWrite_frame write).control
  | storeSP low high => exact (memWrite_frame low).control.trans (memWrite_frame high).control
  | incAtHL _ write | decAtHL _ write => exact (memWrite_frame write).control
  | stop => exact absurd rfl hb
  | _ => simp [SameControl]

/-- The total of an unconditional body's table row, in the form the statements give it. -/
theorem stepCycles_of_completes {i : Instr} {b : Body} {s t : State} (hb : bodyOf i = b)
    (hcond : b.tuple.condition = none) (h : b.Completes s t) :
    StepCycles i s t (b.tuple.kind.cycleTotal true b.tuple.mode) := by
  obtain ⟨taken, k, heval, hcycles, htotal⟩ := completes_cycles h
  rw [hcond] at heval
  cases heval
  have hlen : i.length = b.tuple.mode.format.length := by rw [Instr.length, tuple_eq_bodyOf_tuple, hb]
  rw [htotal, ← hlen]
  exact ⟨Nat.le_add_right _ _, by rw [hcycles, Nat.add_sub_cancel_left]⟩

/-! ### Memory -/

theorem sameMemory_of_eq {s t : State} (hm : t.mem = s.mem) (hc : t.cart = s.cart) : SameMemory s t :=
  ⟨busRead_congr hm hc, hc⟩

theorem SameMemoryExcept.trans {s t u : State} {l l' : List Int} (h : SameMemoryExcept s t l)
    (h' : SameMemoryExcept t u l') : SameMemoryExcept s u (l ++ l') := by
  obtain ⟨hread, hcart⟩ := h
  obtain ⟨hread', hcart'⟩ := h'
  refine ⟨fun addr hb hnot => ?_, fun hor => ?_⟩
  · rw [List.mem_append, not_or] at hnot
    exact (hread' addr hb hnot.2).trans (hread addr hb hnot.1)
  · have ht : t.cart = s.cart := hcart (hor.imp_left fun hn a ha => hn a (List.mem_append_left _ ha))
    have hu : u.cart = t.cart := hcart' (by
      rw [ht]
      exact hor.imp_left fun hn a ha => hn a (List.mem_append_right _ ha))
    exact hu.trans ht

/-- Stores into the range of a ROM-only cartridge alone leave every bus byte (20_memory.md R68). -/
theorem SameMemoryExcept.sameMemory_of_romOnly {s t : State} {l : List Int} (h : SameMemoryExcept s t l)
    (hl : ∀ a ∈ l, InCart a) (hrom : s.cart.romOnly = true) : SameMemory s t := by
  obtain ⟨hread, hcart⟩ := h
  have hc : t.cart = s.cart := hcart (.inr hrom)
  refine ⟨fun addr => ?_, hc⟩
  by_cases hm : InMap addr
  · rcases inMap_cases hm with hin | hb
    · rw [busRead_cart t hin, busRead_cart s hin, hc]
    · have hnot : addr ∉ l := fun ha => by
        have := (hl addr ha).2
        have := hb.1
        omega
      exact hread addr hb hnot
  · rw [busRead_outside t hm, busRead_outside s hm]

/-! ### Registers -/

theorem sameR8Except_setR8 (s : State) (r : R8) (v : Byte) : SameR8Except s (s.setR8 r v) [r] := fun q hq =>
  s.setR8_r8_other r q v (by simpa using hq)

theorem sameR8Except_setR16 (s : State) (p : R16) (v : Word) : SameR8Except s (s.setR16 p v) p.halves := fun q hq =>
  s.setR16_r8_other p v q hq

theorem SameR8Except.trans {s t u : State} {l l' : List R8} (h : SameR8Except s t l) (h' : SameR8Except t u l') :
    SameR8Except s u (l ++ l') := fun r hr => by
  rw [List.mem_append, not_or] at hr
  exact (h' r hr.2).trans (h r hr.1)

theorem sameR8Except_tick (s : State) (n : Nat) : SameR8Except s (s.tick n) [] := fun r _ => s.tick_r8 n r

/-- A completed CPU-side write leaves every register. -/
theorem WriteFrame.sameR8 {s t : State} (h : WriteFrame s t) : SameR8Except s t [] := fun r _ => h.r8 r

/-! ### Bodies -/

theorem exec_of_bodyOf {i : Instr} {b : Body} (hb : bodyOf i = b) (s : State) : exec i s = b.run s :=
  hb ▸ exec_eq_run i s

/-- What every completed load has in common, with the cycles `total` of its step. -/
structure LoadFrame (i : Instr) (s t : State) (total : Nat) : Prop where
  exec : exec i s = .next t
  f : t.f = s.f
  pc : t.pc = s.pc
  control : SameControl s t
  cycles : StepCycles i s t total

/-- A load tests no condition and is no relative jump (30_encoding.md R105). -/
theorem load_unconditional {b : Body} (hk : b.tuple.kind = .ld) :
    b.tuple.condition = none ∧ b.tuple.mode ≠ .rel8 := by
  cases b with
  | jump => cases hk
  | stepHL =>
    refine ⟨rfl, ?_⟩
    simp only [Body.tuple]
    split <;> exact nofun
  | _ => exact ⟨rfl, nofun⟩

theorem loadFrame {i : Instr} {b : Body} {s t : State} (hb : bodyOf i = b) (hk : b.tuple.kind = .ld)
    (h : b.Completes s t) : LoadFrame i s t (OpKind.cycleTotal true .ld b.tuple.mode) := by
  have hexec : exec i s = .next t := exec_next_iff.2 (hb ▸ h)
  have hkind : i.tuple.kind = .ld := by rw [tuple_eq_bodyOf_tuple, hb, hk]
  obtain ⟨hcond, hmode⟩ := load_unconditional hk
  exact ⟨hexec, exec_load_f hkind hexec, completes_pc hmode h, completes_control (by rintro rfl; cases hk) h,
    hk ▸ stepCycles_of_completes hb hcond h⟩

end Sys2Proof.Machine
end

section
/-! PROOFS. Loads of an immediate and between registers (O38 to O40): 41_loads.md R150 to R153. -/

namespace Sys2Proof.Machine

theorem bodyOf_loadImm8 (r : R8) (d8 : Byte) : bodyOf (Instr.loadImm8 r d8) = .imm8 r d8 := by cases r <;> rfl

theorem bodyOf_loadImm16 (p : R16) (d16 : Word) : bodyOf (Instr.loadImm16 p d16) = .imm16 p d16 := by cases p <;> rfl

theorem bodyOf_loadReg (dst src : R8) : bodyOf (Instr.loadReg dst src) = .reg dst src := by
  cases dst <;> cases src <;> rfl

/-- Settles O38: the body writes the one register. -/
theorem loadImmediateByte : Obligations.LoadImmediateByte := by
  intro r d8 s
  have frame := loadFrame (s := s) (bodyOf_loadImm8 r d8) rfl .imm8
  exact ⟨_, frame.exec, s.setR8_r8_same r d8, sameR8Except_setR8 s r d8, frame.f, s.setR8_sp r d8, frame.pc,
    sameMemory_of_eq (s.setR8_mem r d8) (s.setR8_cart r d8), frame.control, frame.cycles⟩

/-- Settles O39: the body writes the pair, whose value is the combination of the two bytes. -/
theorem loadImmediateWord : Obligations.LoadImmediateWord := by
  intro p b1 b2 s
  have frame := loadFrame (s := s) (bodyOf_loadImm16 p (assemble16 b1 b2)) rfl .imm16
  have hvalue : ((s.setR16 p (assemble16 b1 b2)).r16 p).toNat = 256 * b2.toNat + b1.toNat := by
    rw [State.setR16_r16_same, assemble16_eq_combine, combine_toNat]
  exact ⟨_, frame.exec, hvalue, sameR8Except_setR16 s p _, fun hp => (s.setR16_sp p _).trans (if_neg hp), frame.f, frame.pc,
    sameMemory_of_eq (s.setR16_mem p _) (s.setR16_cart p _), frame.control, frame.cycles⟩

/-- Settles O40: the copy writes the one register; `LD SP,HL` writes SP with the view of H and L. -/
theorem copyBetweenRegisters : Obligations.CopyBetweenRegisters := by
  refine ⟨fun dst src s => ?copy, fun s => ?toSP⟩
  case copy =>
    have frame := loadFrame (s := s) (bodyOf_loadReg dst src) rfl .reg
    exact ⟨_, frame.exec, s.setR8_r8_same dst _, sameR8Except_setR8 s dst _, frame.f, s.setR8_sp dst _, frame.pc,
      sameMemory_of_eq (s.setR8_mem dst _) (s.setR8_cart dst _), frame.control, frame.cycles⟩
  case toSP =>
    have frame := loadFrame (i := .ldSP_HL) (s := s) rfl rfl .pair
    exact ⟨_, frame.exec, combine_toNat s.h s.l, (sameR8Except_setR16 s .sp _).trans (sameR8Except_tick _ 1), frame.f,
      frame.pc, sameMemory_of_eq rfl rfl, frame.control, frame.cycles⟩

end Sys2Proof.Machine
end

section
/-! PROOFS. Loads from memory (O41, O43): 41_loads.md R154 to R156, R160, R161, R164. -/

namespace Sys2Proof.Machine

theorem bodyOf_loadAtHL (r : R8) : bodyOf (Instr.loadAtHL r) = .fromPair r .hl := by cases r <;> rfl

theorem not_inMap_of_gap {n : Nat} (h : 0xFEA0 ≤ n ∧ n ≤ 0xFEFF) : ¬InMap n :=
  not_inMap_iff.2 (.inl (by omega))

theorem loadFromPair_outside (dst : R8) {p : R16} {s : State} (h : ¬InMap (s.ea p)) :
    ∃ f, loadFromPair dst p s = .fault f ∧ FaultsWith s (s.ea p) .read f := by
  rcases loadFromPair_cases dst p s with ⟨v, hv, _⟩ | ⟨_, he⟩
  · exact absurd (inMap_of_busRead hv) h
  · exact ⟨_, he, faultsWith_raise s _ .read⟩

theorem loadThenStepHL_outside (delta : Word) {s : State} (h : ¬InMap (s.ea .hl)) :
    ∃ f, loadThenStepHL delta s = .fault f ∧ FaultsWith s (s.ea .hl) .read f := by
  rcases loadThenStepHL_cases delta s with ⟨v, hv, _⟩ | ⟨_, he⟩
  · exact absurd (inMap_of_busRead hv) h
  · exact ⟨_, he, faultsWith_raise s _ .read⟩

/-- Settles O41: within the map the body completes with the byte read there; in the gap its access fails. -/
theorem loadFromPairAddress : Obligations.LoadFromPairAddress := by
  unfold Obligations.LoadFromPairAddress
  intro loads
  have hloads : ∀ {i dst p}, bodyOf i = .fromPair dst p → loads i dst p := by
    intro i dst p hb s
    refine ⟨fun hm => ?inMap, fun hgap => ?gap⟩
    case inMap =>
      obtain ⟨v, hv⟩ := busRead_isSome s hm
      have frame := loadFrame (s := s) hb rfl (.fromPair hv)
      exact ⟨_, frame.exec, by rw [State.setR8_r8_same, hv], (sameR8Except_tick s 1).trans (sameR8Except_setR8 _ dst v),
        frame.f, by simp, frame.pc, sameMemory_of_eq (by simp) (by simp), frame.control, frame.cycles⟩
    case gap =>
      rw [exec_of_bodyOf hb]
      exact loadFromPair_outside dst (not_inMap_of_gap hgap)
  exact ⟨hloads rfl, hloads rfl, fun r => hloads (bodyOf_loadAtHL r)⟩

/-- Settles O43: within the map the body completes with the byte read in A, then the changed pair in H and L; in the gap its
access fails. -/
theorem loadThenStepHl : Obligations.LoadThenStepHl := by
  unfold Obligations.LoadThenStepHl
  intro loads
  have hloads : ∀ {i} {delta : Word}, bodyOf i = .stepHL delta → loads i delta.toNat := by
    intro i delta hb s
    refine ⟨fun hm => ?inMap, fun hgap => ?gap⟩
    case inMap =>
      obtain ⟨v, hv⟩ := busRead_isSome s hm
      have frame := loadFrame (s := s) hb rfl (.stepHL hv)
      have htotal : OpKind.cycleTotal true .ld (Body.stepHL delta).tuple.mode = 3 := by
        simp only [Body.tuple]
        split <;> rfl
      exact ⟨_, frame.exec, hv, by simp [BitVec.toNat_add],
        (((sameR8Except_tick s 1).trans (sameR8Except_setR8 _ .a v)).trans (sameR8Except_setR16 _ .hl _)).trans
          (sameR8Except_tick _ 1),
        frame.f, rfl, frame.pc, sameMemory_of_eq rfl rfl, frame.control, htotal ▸ frame.cycles⟩
    case gap =>
      rw [exec_of_bodyOf hb]
      exact loadThenStepHL_outside delta (not_inMap_of_gap hgap)
  exact ⟨hloads (delta := 1) rfl, hloads (delta := -1) rfl⟩

end Sys2Proof.Machine
end

section
/-! PROOFS. Stores (O42, O44, O45): 41_loads.md R157 to R159, R162, 40_step_cycle.md R139. -/

namespace Sys2Proof.Machine

/-! ### A register at a pair's address -/

theorem bodyOf_storeAtHL (r : R8) : bodyOf (Instr.storeAtHL r) = .toPair .hl r := by cases r <;> rfl

theorem memWrite_isOk {addr : Int} (s : State) (v : Byte) (h : InMap addr) : ∃ t, memWrite s addr v = .ok t := by
  obtain ⟨t, ht⟩ := busWrite_isSome s v h
  exact ⟨_, memWrite_of_busWrite ht⟩

theorem storeToPair_outside {p : R16} (src : R8) {s : State} (h : ¬InMap (s.ea p)) :
    ∃ f, storeToPair p src s = .fault f ∧ FaultsWith s (s.ea p) .write f := by
  rcases storeToPair_cases p src s with ⟨t, ht, _⟩ | ⟨_, he⟩
  · exact absurd (memWrite_inMap ht) h
  · exact ⟨_, he, faultsWith_raise s _ .write⟩

/-- Settles O42: within the map the body is one CPU-side write; in the gap that access fails. -/
theorem storeToPairAddress : Obligations.StoreToPairAddress := by
  unfold Obligations.StoreToPairAddress
  intro stores
  have hstores : ∀ {i p src}, bodyOf i = .toPair p src → stores i p src := by
    intro i p src hb s hi
    refine ⟨fun hm => ?inMap, fun hgap => ?gap⟩
    case inMap =>
      obtain ⟨t, ht⟩ := memWrite_isOk s (s.r8 src) hm
      have frame := loadFrame (s := s) hb rfl (.toPair ht)
      have hmem := memWrite_sameMemoryExcept ht
      exact ⟨t, frame.exec, memWrite_same hi.1 ht,
        fun hc hrom => hmem.sameMemory_of_romOnly (by simpa using hc) hrom, hmem, (memWrite_frame ht).sameR8,
        frame.f, (memWrite_frame ht).sp, frame.pc, frame.control, frame.cycles⟩
    case gap =>
      rw [exec_of_bodyOf hb]
      exact storeToPair_outside src (not_inMap_of_gap hgap)
  exact ⟨hstores rfl, hstores rfl, fun r => hstores (bodyOf_storeAtHL r)⟩

/-! ### SP at an immediate address -/

theorem eaHigh_eq (a16 : Word) : eaHigh a16 = (a16.toNat : Int) + 1 := by simp [eaHigh]

theorem storeWord_lowOutside {v a16 : Word} {s : State} (h : ¬InMap (eaLow a16)) :
    ∃ f, storeWord v a16 s = .fault f ∧ FaultsWith s (eaLow a16) .write f := by
  obtain ⟨f, he, hf⟩ := memWrite_outside s (lowByte v) h
  exact ⟨f, by simp [storeWord, he], hf⟩

/-- Where the second write fails, the fault is that of the state the first one left. -/
theorem storeWord_highOutside {v a16 : Word} {s t : State} (hlow : memWrite s (eaLow a16) (lowByte v) = .ok t)
    (h : ¬InMap (eaHigh a16)) : ∃ f, storeWord v a16 s = .fault f ∧ FaultsWith t (eaHigh a16) .write f := by
  obtain ⟨f, he, hf⟩ := memWrite_outside t (highByte v) h
  exact ⟨f, by simp [storeWord, hlow, he], hf⟩

/-- The state a failing access leaves reads as the state before it. -/
theorem FaultsWith.busRead_left {s : State} {addr : Int} {dir : AccessDir} {f : Fault} (h : FaultsWith s addr dir f)
    (other : Int) : busRead f.left other = busRead s other := by
  obtain ⟨left, rfl, _, hleft⟩ := h
  exact hleft ▸ busRead_congr rfl rfl other

/-- Settles O44: two CPU-side writes at different addresses, so that each byte reads back. -/
theorem storeSpWritesLowThenHigh : Obligations.StoreSpWritesLowThenHigh := by
  intro a16 s hi hmLow hmHigh
  obtain ⟨t, hlow⟩ := memWrite_isOk s (lowByte s.sp) hmLow
  obtain ⟨u, hhigh⟩ := memWrite_isOk t (highByte s.sp) hmHigh
  have frame := loadFrame (i := .ldAtA16_SP a16) (s := s) rfl rfl
    (.storeSP hlow (by rw [eaHigh_eq]; exact hhigh))
  have hmem := (memWrite_sameMemoryExcept hlow).trans (memWrite_sameMemoryExcept hhigh)
  refine ⟨u, frame.exec, fun hb => ?lowByte, fun hb => ?highByte, fun hcLow hcHigh hrom => ?discarded, hmem,
    (memWrite_frame hlow).sameR8.trans (memWrite_frame hhigh).sameR8, frame.f,
    (memWrite_frame hhigh).sp.trans (memWrite_frame hlow).sp, frame.pc, frame.control, frame.cycles⟩
  case lowByte =>
    rw [memWrite_other hhigh hb (by omega), memWrite_same hi.1 hlow hb, lowByte_eq_ofNat]
  case highByte =>
    rw [memWrite_same (memWrite_inv hi hlow).1 hhigh hb, highByte_eq_ofNat]
  case discarded =>
    exact hmem.sameMemory_of_romOnly (by simpa using ⟨hcLow, hcHigh⟩) hrom

/-- Settles O45: in the gap the first write fails; at 0xFE9F and 0xFFFF the first is done and the second fails, from the state
the first one left. -/
theorem storeSpFaultKeepsTheLowByte : Obligations.StoreSpFaultKeepsTheLowByte := by
  intro a16 s hi
  refine ⟨fun hgap => storeWord_lowOutside (not_inMap_of_gap hgap), fun hlast => ?_⟩
  have hb : InBuffers a16.toNat := by
    simp only [InBuffers, InMap]
    omega
  have hout : ¬InMap (eaHigh a16) := by
    rw [eaHigh_eq, not_inMap_iff]
    omega
  have hu := busWrite_buffer s (lowByte s.sp) hb
  have hlow := memWrite_of_busWrite hu
  obtain ⟨f, he, hf⟩ := storeWord_highOutside hlow hout
  rw [← lowByte_eq_ofNat]
  refine ⟨f, _, he, hu, eaHigh_eq a16 ▸ hf, ?_⟩
  rw [hf.busRead_left, memWrite_same hi.1 hlow hb]

end Sys2Proof.Machine
end

section
/-! PROOFS. The frame of a completed operation between registers, in the terms of the statements. -/

namespace Sys2Proof.Machine

/-- What every completed operation between registers has in common, with the cycles `total` of its step. -/
structure RegisterFrame (i : Instr) (s t : State) (total : Nat) : Prop where
  exec : exec i s = .next t
  pc : t.pc = s.pc
  memory : SameMemory s t
  control : SameControl s t
  cycles : StepCycles i s t total

/-- Only the relative jump tests a condition or has the mode of one (30_encoding.md R105). -/
theorem unconditional_of_kind_ne_jr {b : Body} (hk : b.tuple.kind ≠ .jr) :
    b.tuple.condition = none ∧ b.tuple.mode ≠ .rel8 := by
  cases b with
  | jump => exact absurd rfl hk
  | stepHL => exact load_unconditional rfl
  | _ => exact ⟨rfl, nofun⟩

theorem registerFrame {i : Instr} {b : Body} {s t : State} (hb : bodyOf i = b) (hjr : b.tuple.kind ≠ .jr)
    (hstop : b ≠ .stop) (h : b.Completes s t) (hmem : t.mem = s.mem) (hcart : t.cart = s.cart) :
    RegisterFrame i s t (b.tuple.kind.cycleTotal true b.tuple.mode) := by
  obtain ⟨hcond, hmode⟩ := unconditional_of_kind_ne_jr hjr
  exact ⟨exec_next_iff.2 (hb ▸ h), completes_pc hmode h, sameMemory_of_eq hmem hcart, completes_control hstop h,
    stepCycles_of_completes hb hcond h⟩

theorem sameR8Except_setFlags (s : State) (g : Flags) : SameR8Except s (s.setFlags g) [] := fun r _ =>
  s.setFlags_r8 g r

end Sys2Proof.Machine
end

section
/-! PROOFS. Addition (O46, O47): 42_add.md R200 to R202. -/

namespace Sys2Proof.Machine

theorem bodyOf_addA (r : R8) : bodyOf (Instr.addA r) = .addA r := by cases r <;> rfl

theorem bodyOf_addHL (p : R16) : bodyOf (Instr.addHL p) = .addHL p := by cases p <;> rfl

theorem add8Flags_eq (f : Flags) (x y : Byte) : add8Flags f x y =
    ⟨f.z, false, decide (16 ≤ x.toNat % 16 + y.toNat % 16), decide (0xFF < x.toNat + y.toNat)⟩ := by
  simp [add8Flags, half8_testBit, sum8]

theorem add16Flags_eq (f : Flags) (x y : Word) : add16Flags f x y =
    ⟨f.z, false, decide (256 ≤ x.toNat % 256 + y.toNat % 256), decide (0xFFFF < x.toNat + y.toNat)⟩ := by
  simp [add16Flags, half16_testBit, sum16]

/-- Settles O46: the body writes A, then the flags, whose half-carry is the carry out of bit 3. -/
theorem addByteToA : Obligations.AddByteToA := by
  intro r s
  have frame := registerFrame (s := s) (bodyOf_addA r) nofun nofun .addA rfl rfl
  exact ⟨_, frame.exec, BitVec.toNat_ofNat .., add8Flags_eq ..,
    (sameR8Except_setR8 s .a _).trans (sameR8Except_setFlags _ _), rfl, frame.pc, frame.memory, frame.control,
    frame.cycles⟩

/-- Settles O47: the body writes the pair, counts the cycle of that write, then writes the flags, whose half-carry is the
carry out of bit 7. -/
theorem addWordToHl : Obligations.AddWordToHl := by
  intro p s
  have frame := registerFrame (s := s) (bodyOf_addHL p) nofun nofun .addHL rfl rfl
  have hvalue : (s.setR16 .hl (BitVec.ofNat 16 (sum16 (s.r16 .hl) (s.r16 p)))).r16 .hl =
      BitVec.ofNat 16 (sum16 (s.r16 .hl) (s.r16 p)) := s.setR16_r16_same .hl _
  exact ⟨_, frame.exec, (congrArg BitVec.toNat hvalue).trans (BitVec.toNat_ofNat ..), add16Flags_eq ..,
    ((sameR8Except_setR16 s .hl _).trans (sameR8Except_tick _ 1)).trans (sameR8Except_setFlags _ _), rfl, frame.pc,
    frame.memory, frame.control, frame.cycles⟩

end Sys2Proof.Machine
end

section
/-! PROOFS. The decimal adjust after `ADD A,r` (O52): 42_add.md R200, 44_acc_flag_ops.md R230. -/

namespace Sys2Proof.Machine

theorem daaLow_add8Flags (f : Flags) (x y : Byte) :
    daaLow (add8Flags f x y) (BitVec.ofNat 8 (sum8 x y)) = decide (10 ≤ x.toNat % 16 + y.toNat % 16) := by
  rw [daaLow_eq, add8Flags_eq, BitVec.toNat_ofNat, sum8, if_neg Bool.false_ne_true, ← Bool.decide_or,
    decide_eq_decide]
  omega

theorem daaHigh_add8Flags (f : Flags) (x y : Byte) :
    daaHigh (add8Flags f x y) (BitVec.ofNat 8 (sum8 x y)) = decide (0x99 < x.toNat + y.toNat) := by
  rw [daaHigh_eq, add8Flags_eq, BitVec.toNat_ofNat, sum8, if_neg Bool.false_ne_true, ← Bool.decide_or,
    decide_eq_decide]
  omega

/-- The two corrections as one number (44_acc_flag_ops.md R230). -/
theorem daaAdjust_toNat (f : Flags) (x : Byte) :
    (daaAdjust f x).toNat = 0x06 * (daaLow f x).toNat + 0x60 * (daaHigh f x).toNat := by
  unfold daaAdjust
  cases daaLow f x <;> cases daaHigh f x <;> rfl

theorem daaResult_add8Flags_toNat (f : Flags) (x y : Byte) :
    (daaResult (add8Flags f x y) (BitVec.ofNat 8 (sum8 x y))).toNat =
      (x.toNat + y.toNat + 0x06 * (decide (10 ≤ x.toNat % 16 + y.toNat % 16)).toNat +
        0x60 * (decide (0x99 < x.toNat + y.toNat)).toNat) % 2 ^ 8 := by
  have hn : (add8Flags f x y).n = false := rfl
  rw [daaResult, hn, if_neg Bool.false_ne_true, BitVec.toNat_add, daaAdjust_toNat, daaLow_add8Flags,
    daaHigh_add8Flags, BitVec.toNat_ofNat, Nat.mod_add_mod, sum8, Nat.add_assoc (x.toNat + y.toNat)]

/-- Two decimal digits, one in each nibble. -/
def packedBcd (x : Nat) : Nat := 16 * (x / 10) + x % 10

theorem packedBcd_mod_sixteen (x : Nat) : packedBcd x % 16 = x % 10 := by
  unfold packedBcd
  omega

/-- The test for the high correction is the decimal carry. -/
theorem packedBcd_add_gt_iff (x y : Nat) : 0x99 < packedBcd x + packedBcd y ↔ 100 ≤ x + y := by
  unfold packedBcd
  omega

/-- The binary sum of two packed numbers, with 6 for a carry out of the units and 0x60 for a carry out of the tens, is their
packed decimal sum. -/
theorem packedBcd_add_corrected {x y : Nat} (hx : x < 100) (hy : y < 100) :
    (packedBcd x + packedBcd y + 0x06 * (decide (10 ≤ x % 10 + y % 10)).toNat +
      0x60 * (decide (100 ≤ x + y)).toNat) % 2 ^ 8 = packedBcd ((x + y) % 100) := by
  unfold packedBcd
  by_cases hunits : 10 ≤ x % 10 + y % 10 <;> by_cases htens : 100 ≤ x + y <;>
    simp only [hunits, htens, decide_true, decide_false, Bool.toNat_true, Bool.toNat_false] <;> omega

/-- Settles O52: after the sum of two packed bytes each test of `DAA` is a decimal carry, and the corrected sum is the decimal
sum. -/
theorem decimalAdjustAfterAddIsDecimalSum : Obligations.DecimalAdjustAfterAddIsDecimalSum := by
  unfold Obligations.DecimalAdjustAfterAddIsDecimalSum
  intro bcd r s u t x y hx hy ha hr hadd hdaa
  have hbcd : ∀ z, bcd z = packedBcd z := fun _ => rfl
  rw [hbcd] at ha hr ⊢
  rw [exec_next_iff] at hadd hdaa
  rw [bodyOf_addA] at hadd
  cases hadd
  cases hdaa
  refine ⟨?sum, ?carry⟩
  case sum =>
    refine (daaResult_add8Flags_toNat s.f s.a (s.r8 r)).trans ?_
    simp only [ha, hr, packedBcd_mod_sixteen, packedBcd_add_gt_iff, packedBcd_add_corrected hx hy]
  case carry =>
    refine (daaHigh_add8Flags s.f s.a (s.r8 r)).trans ?_
    simp only [ha, hr, packedBcd_add_gt_iff]

end Sys2Proof.Machine
end

section
/-! PROOFS. Increment and decrement (O48 to O50): 43_incdec.md R210 to R216. -/

namespace Sys2Proof.Machine

/-! ### Values and flags -/

theorem incrementValue_eq_ofNat (v : Byte) : incrementValue v = BitVec.ofNat 8 (v.toNat + 1) :=
  BitVec.eq_of_toNat_eq (by rw [incrementValue_toNat, BitVec.toNat_ofNat])

theorem decrementValue_eq_ofNat (v : Byte) : decrementValue v = BitVec.ofNat 8 (v.toNat + 255) :=
  BitVec.eq_of_toNat_eq (by rw [decrementValue_toNat, BitVec.toNat_ofNat])

theorem inc8Flags_eq (f : Flags) (v res : Byte) : inc8Flags f v res =
    ⟨decide (res.toNat = 0), false, decide (v.toNat % 16 = 15), f.c⟩ := by
  rw [inc8Flags, eq_zero_flag, low_nibble_eq]
  rfl

theorem dec8Flags_eq (f : Flags) (v res : Byte) : dec8Flags f v res =
    ⟨decide (res.toNat = 0), true, decide (v.toNat % 16 = 0), f.c⟩ := by
  rw [dec8Flags, eq_zero_flag, low_nibble_eq]
  rfl

/-! ### A register -/

theorem bodyOf_incReg (r : R8) : bodyOf (Instr.incReg r) = .incR r := by cases r <;> rfl

theorem bodyOf_decReg (r : R8) : bodyOf (Instr.decReg r) = .decR r := by cases r <;> rfl

theorem sameR8Except_setR8_setFlags (s : State) (r : R8) (v : Byte) (g : Flags) :
    SameR8Except s ((s.setR8 r v).setFlags g) [r] :=
  (sameR8Except_setR8 s r v).trans (sameR8Except_setFlags _ g)

/-- Settles O48: each body writes the register, then the flags of the old and the new value. -/
theorem incrementAndDecrementRegister : Obligations.IncrementAndDecrementRegister := by
  refine ⟨fun r s => ?increment, fun r s => ?decrement⟩
  case increment =>
    have frame := registerFrame (s := s) (bodyOf_incReg r) nofun nofun .incR (by simp) (by simp)
    refine ⟨_, frame.exec, ?value, ?flags, sameR8Except_setR8_setFlags s r _ _, s.setR8_sp r _, frame.pc, frame.memory,
      frame.control, frame.cycles⟩ <;> rw [State.setFlags_r8, State.setR8_r8_same]
    case value => exact incrementValue_toNat _
    case flags => exact inc8Flags_eq ..
  case decrement =>
    have frame := registerFrame (s := s) (bodyOf_decReg r) nofun nofun .decR (by simp) (by simp)
    refine ⟨_, frame.exec, ?value, ?flags, sameR8Except_setR8_setFlags s r _ _, s.setR8_sp r _, frame.pc, frame.memory,
      frame.control, frame.cycles⟩ <;> rw [State.setFlags_r8, State.setR8_r8_same]
    case value => exact decrementValue_toNat _
    case flags => exact dec8Flags_eq ..

/-! ### A pair -/

theorem bodyOf_incPair (p : R16) : bodyOf (Instr.incPair p) = .incP p := by cases p <;> rfl

theorem bodyOf_decPair (p : R16) : bodyOf (Instr.decPair p) = .decP p := by cases p <;> rfl

/-- Settles O49: each body writes the pair's value plus or minus one, and counts the cycle of that write. -/
theorem incrementAndDecrementPair : Obligations.IncrementAndDecrementPair := by
  unfold Obligations.IncrementAndDecrementPair
  intro steps p
  have hsteps : ∀ {i} {delta : Word}, (∀ s, RegisterFrame i s ((s.setR16 p (s.r16 p + delta)).tick 1) 2) →
      steps i p delta.toNat := by
    intro i delta hframe s
    have frame := hframe s
    have hvalue : (((s.setR16 p (s.r16 p + delta)).tick 1).r16 p).toNat = ((s.r16 p).toNat + delta.toNat) % 2 ^ 16 := by
      rw [State.tick_r16, State.setR16_r16_same, BitVec.toNat_add]
    exact ⟨_, frame.exec, hvalue, (sameR8Except_setR16 s p _ :),
      fun hp => (s.setR16_sp p _).trans (if_neg hp), s.setR16_f p _, frame.pc, frame.memory, frame.control, frame.cycles⟩
  refine ⟨hsteps (delta := 1) fun s => ?increment, hsteps (delta := -1) fun s => ?decrement⟩
  case increment => exact registerFrame (bodyOf_incPair p) nofun nofun .incP (by simp) (by simp)
  case decrement =>
    rw [← BitVec.sub_eq_add_neg]
    exact registerFrame (bodyOf_decPair p) nofun nofun .decP (by simp) (by simp)

/-! ### The byte at HL -/

section
variable {s : State} (op : Byte → Byte) (flags : Flags → Byte → Byte → Flags)

/-- Where the read answers, the write back to the same address is done too (43_incdec.md R214). -/
theorem modifyAtHL_of_busRead {v : Byte} (h : busRead s (s.ea .hl) = some v) :
    ∃ t, memWrite (s.tick 1) (s.ea .hl) (op v) = .ok t ∧
      modifyAtHL op flags s = .next (t.setFlags (flags s.f v (op v))) := by
  rcases modifyAtHL_cases op flags s with ⟨w, t, hw, ht, he⟩ | ⟨hn, _⟩
  · cases h.symm.trans hw
    exact ⟨t, ht, he⟩
  · exact absurd (inMap_of_busRead h) hn

theorem modifyAtHL_outside (h : ¬InMap (s.ea .hl)) :
    ∃ f, modifyAtHL op flags s = .fault f ∧ FaultsWith s (s.ea .hl) .read f := by
  rcases modifyAtHL_cases op flags s with ⟨v, _, hv, _⟩ | ⟨_, he⟩
  · exact absurd (inMap_of_busRead hv) h
  · exact ⟨_, he, faultsWith_raise s _ .read⟩

end

/-- The read, the write back and the byte of the opcode: three cycles (40_step_cycle.md R137). -/
theorem stepCycles_of_readThenWrite {i : Instr} {s t : State} (hlen : i.length = 1) (h : t.cycles = (s.tick 1).cycles + 1) :
    StepCycles i s t 3 := by
  rw [StepCycles, hlen, h, State.tick_cycles, BitVec.add_assoc]
  exact ⟨by decide, rfl⟩

/-- Settles O50: where the read answers, one CPU-side write of the new byte, then the flags, whether or not the cartridge
discards the write; in the gap the read fails. -/
theorem incrementAndDecrementByteAtHl : Obligations.IncrementAndDecrementByteAtHl := by
  unfold Obligations.IncrementAndDecrementByteAtHl
  intro modifies
  have hmodifies : ∀ {i op flags delta n borrowNibble}, i.length = 1 → (∀ s, exec i s = modifyAtHL op flags s) →
      (∀ v, op v = BitVec.ofNat 8 (v.toNat + delta)) →
      (∀ f v res, flags f v res = ⟨decide (res.toNat = 0), n, decide (v.toNat % 16 = borrowNibble), f.c⟩) →
      modifies i delta n borrowNibble := by
    intro i op flags delta n borrowNibble hlen hexec hop hflags s hi
    rw [hexec]
    refine ⟨fun v hv => ?inMap, fun hgap => modifyAtHL_outside op flags (not_inMap_of_gap hgap)⟩
    obtain ⟨t, ht, he⟩ := modifyAtHL_of_busRead op flags hv
    have frame := memWrite_frame ht
    have hmem : SameMemoryExcept s t [s.ea .hl] := (memWrite_sameMemoryExcept ht :)
    refine ⟨_, he, fun hb => ?byte, fun hc hrom => ?discarded, hmem, ?flags, frame.sameR8.trans (sameR8Except_setFlags t _),
      frame.sp, frame.pc, frame.control, stepCycles_of_readThenWrite hlen frame.cycles⟩
    case byte =>
      rw [← hop]
      exact (memWrite_same (s := s.tick 1) hi.1 ht hb :)
    case discarded => exact hmem.sameMemory_of_romOnly (List.forall_mem_singleton.2 hc) hrom
    case flags => rw [State.setFlags_f, hflags, hop, BitVec.toNat_ofNat]
  exact ⟨hmodifies rfl (exec_of_bodyOf rfl) incrementValue_eq_ofNat inc8Flags_eq,
    hmodifies rfl (exec_of_bodyOf rfl) decrementValue_eq_ofNat dec8Flags_eq⟩

end Sys2Proof.Machine
end

section
/-! PROOFS. Decimal adjust, complement and set-carry (O51, O53): 44_acc_flag_ops.md R230 to R232. -/

namespace Sys2Proof.Machine

/-- The corrected accumulator (44_acc_flag_ops.md R230), by the N branch. -/
theorem daaResult_toNat (f : Flags) (x : Byte) : (daaResult f x).toNat =
    (if f.n then x.toNat + 2 ^ 8 - (daaAdjust f x).toNat else x.toNat + (daaAdjust f x).toNat) % 2 ^ 8 := by
  unfold daaResult
  split
  · rw [BitVec.toNat_sub]
    omega
  · exact BitVec.toNat_add ..

theorem daaFlags_eq (f : Flags) (x : Byte) : daaFlags f x =
    ⟨decide ((daaResult f x).toNat = 0), f.n, false, if f.n then f.c else daaHigh f x⟩ := by
  rw [daaFlags, eq_zero_flag]

/-- Settles O51: both corrections are tests of the old A and flags; the body writes the corrected A, then the flags. -/
theorem decimalAdjust : Obligations.DecimalAdjust := by
  intro s low high adj
  have hlow : daaLow s.f s.a = low := daaLow_eq ..
  have hhigh : daaHigh s.f s.a = high := daaHigh_eq ..
  have hadj : (daaAdjust s.f s.a).toNat = adj := by rw [daaAdjust_toNat, hlow, hhigh]
  have frame := registerFrame (s := s) (i := .daa) rfl nofun nofun .daa rfl rfl
  refine ⟨_, frame.exec, ?value, ?flags, sameR8Except_setR8_setFlags s .a _ _, rfl, frame.pc, frame.memory,
    frame.control, frame.cycles⟩
  case value =>
    rw [← hadj]
    exact daaResult_toNat ..
  case flags =>
    rw [← hhigh]
    exact daaFlags_eq ..

/-- Settles O53: `CPL` writes A and clears two flags, `SCF` writes the flags alone. -/
theorem complementAndSetCarry : Obligations.ComplementAndSetCarry := by
  refine fun s => ⟨?complement, ?setCarry⟩
  case complement =>
    have frame := registerFrame (s := s) (i := .cpl) rfl nofun nofun .cpl rfl rfl
    exact ⟨_, frame.exec, BitVec.toNat_not, rfl, sameR8Except_setR8_setFlags s .a _ _, rfl, frame.pc, frame.memory,
      frame.control, frame.cycles⟩
  case setCarry =>
    have frame := registerFrame (s := s) (i := .scf) rfl nofun nofun .scf rfl rfl
    exact ⟨_, frame.exec, rfl, sameR8Except_setFlags s _, rfl, frame.pc, frame.memory, frame.control, frame.cycles⟩

end Sys2Proof.Machine
end

section
/-! PROOFS. The rotates of A (O54, O55): 45_rotates.md R240 to R244. The circular pair turns the eight bits of A by one place,
the pair through Carry the nine bits of C above A. -/

namespace Sys2Proof.Machine

/-! ### One place to the left or right -/

theorem getLsbD_flagBit (b : Bool) (k : Nat) : (flagBit b).getLsbD k = (decide (k = 0) && b) := by
  cases b <;> simp [flagBit]

theorem getLsbD_shiftLeftWith (x : Byte) (b : Bool) {k : Nat} (hk : k < 8) :
    (shiftLeftWith x b).getLsbD k = if k = 0 then b else x.getLsbD (k - 1) := by
  rw [shiftLeftWith, BitVec.getLsbD_or, BitVec.getLsbD_shiftLeft, getLsbD_flagBit]
  rcases k with _ | k <;> simp [hk]

theorem getLsbD_shiftRightWith (x : Byte) (b : Bool) {k : Nat} (hk : k < 8) :
    (shiftRightWith x b).getLsbD k = if k = 7 then b else x.getLsbD (k + 1) := by
  rw [shiftRightWith, BitVec.getLsbD_or, BitVec.getLsbD_ushiftRight, BitVec.getLsbD_shiftLeft, getLsbD_flagBit, Nat.add_comm]
  split
  case isTrue h7 => simp [h7]
  case isFalse h7 =>
    have hbelow : k < 7 := by omega
    simp [hbelow]

theorem shiftLeftWith_toNat (x : Byte) (b : Bool) : (shiftLeftWith x b).toNat = x.toNat * 2 % 256 + b.toNat := by
  have hconcat : shiftLeftWith x b = (x.concat b).setWidth 8 := BitVec.eq_of_getLsbD_eq fun k hk => by
    rw [getLsbD_shiftLeftWith x b hk, BitVec.getLsbD_setWidth, BitVec.getLsbD_concat]
    simp [hk]
  have := b.toNat_lt
  rw [hconcat, BitVec.toNat_setWidth, BitVec.toNat_concat]
  omega

theorem shiftRightWith_toNat (x : Byte) (b : Bool) : (shiftRightWith x b).toNat = x.toNat / 2 + 128 * b.toNat := by
  have hcons : shiftRightWith x b = (x.cons b >>> 1).setWidth 8 := BitVec.eq_of_getLsbD_eq fun k hk => by
    rw [getLsbD_shiftRightWith x b hk, BitVec.getLsbD_setWidth, BitVec.getLsbD_ushiftRight, BitVec.getLsbD_cons, Nat.add_comm 1 k]
    simp [hk]
  have := x.isLt
  have := b.toNat_lt
  rw [hcons, BitVec.toNat_setWidth, BitVec.toNat_ushiftRight, BitVec.toNat_cons', Nat.shiftRight_eq_div_pow, Nat.shiftLeft_eq]
  omega

theorem getLsbD_seven_eq (x : Byte) : x.getLsbD 7 = decide (128 ≤ x.toNat) :=
  BitVec.msb_eq_decide x

theorem getLsbD_zero_eq (x : Byte) : x.getLsbD 0 = decide (x.toNat % 2 = 1) := by
  simp [BitVec.getLsbD, Nat.testBit_zero]

/-- Settles O54: each body writes A, one place on with a bit entering, then the flags with the bit shifted out. -/
theorem rotatesOfA : Obligations.RotatesOfA := by
  unfold Obligations.RotatesOfA
  intro rotates
  have hrotates : ∀ {i} {newA : State → Byte} {newC : State → Bool} {res : State → Nat} {out : State → Bool},
      (∀ s, RegisterFrame i s ((s.setR8 .a (newA s)).setFlags (rotateFlags (newC s))) 1) →
      (∀ s, (newA s).toNat = res s) → (∀ s, newC s = out s) → rotates i res out := by
    intro i newA newC res out hframe hres hout s
    have frame := hframe s
    exact ⟨_, frame.exec, hres s, congrArg rotateFlags (hout s), sameR8Except_setR8_setFlags s .a _ _, rfl, frame.pc,
      frame.memory, frame.control, frame.cycles⟩
  refine ⟨hrotates (fun s => registerFrame rfl nofun nofun .rlca rfl rfl) (fun s => ?rlca) fun s => getLsbD_seven_eq s.a,
    hrotates (fun s => registerFrame rfl nofun nofun .rrca rfl rfl) (fun s => ?rrca) fun s => getLsbD_zero_eq s.a,
    hrotates (fun s => registerFrame rfl nofun nofun .rla rfl rfl) (fun s => ?rla) fun s => getLsbD_seven_eq s.a,
    hrotates (fun s => registerFrame rfl nofun nofun .rra rfl rfl) (fun s => ?rra) fun s => getLsbD_zero_eq s.a⟩
  case rlca =>
    have := s.a.isLt
    rw [shiftLeftWith_toNat, getLsbD_toNat]
    omega
  case rrca => rw [shiftRightWith_toNat, getLsbD_toNat, pow_zero, Nat.div_one]
  case rla => exact shiftLeftWith_toNat ..
  case rra => exact shiftRightWith_toNat ..

/-! ### Rotation by one place of any width -/

section
variable {w k : Nat} (x : BitVec w)

theorem getLsbD_rotateLeft_one (hw : 1 < w) (hk : k < w) :
    (x.rotateLeft 1).getLsbD k = x.getLsbD (if k = 0 then w - 1 else k - 1) := by
  rw [BitVec.getLsbD_rotateLeft_of_le hw]
  rcases k with _ | k <;> simp [hk]

theorem getLsbD_rotateRight_one (hw : 1 < w) (hk : k < w) :
    (x.rotateRight 1).getLsbD k = x.getLsbD (if k = w - 1 then 0 else k + 1) := by
  rw [BitVec.getLsbD_rotateRight_of_lt hw]
  split
  case isTrue hlast =>
    subst hlast
    simp [hk]
  case isFalse hlast =>
    have hbelow : k < w - 1 := by omega
    simp [hbelow, Nat.add_comm]

theorem rotateRight_rotateLeft_one (hw : 1 < w) : (x.rotateLeft 1).rotateRight 1 = x :=
  BitVec.eq_of_getLsbD_eq fun k hk => by
    rw [getLsbD_rotateRight_one _ hw hk, getLsbD_rotateLeft_one _ hw (by split <;> omega)]
    congr 1
    by_cases hlast : k = w - 1 <;> simp [hlast]

theorem rotateLeft_rotateRight_one (hw : 1 < w) : (x.rotateRight 1).rotateLeft 1 = x :=
  BitVec.eq_of_getLsbD_eq fun k hk => by
    rw [getLsbD_rotateLeft_one _ hw hk, getLsbD_rotateRight_one _ hw (by split <;> omega)]
    congr 1
    split_ifs <;> omega

/-- After `n` places to the left, the `n` bits that left at the top stand at the bottom. -/
theorem getLsbD_rotateLeft_one_iterate (hw : 1 < w) {n : Nat} (hn : n ≤ w) (hk : k < w) :
    ((BitVec.rotateLeft · 1)^[n] x).getLsbD k = x.getLsbD (if k < n then w - n + k else k - n) := by
  induction n generalizing k with
  | zero => rfl
  | succ n ih =>
    rw [Function.iterate_succ_apply', getLsbD_rotateLeft_one _ hw hk, ih (by omega) (by split <;> omega)]
    congr 1
    split_ifs <;> omega

theorem rotateLeft_one_iterate_width (hw : 1 < w) : (BitVec.rotateLeft · 1)^[w] x = x :=
  BitVec.eq_of_getLsbD_eq fun k hk => by
    rw [getLsbD_rotateLeft_one_iterate x hw le_rfl hk, if_pos hk, Nat.sub_self, Nat.zero_add]

theorem rotateRight_one_iterate_width (hw : 1 < w) : (BitVec.rotateRight · 1)^[w] x = x := by
  have hinv : Function.LeftInverse (BitVec.rotateRight · 1) (BitVec.rotateLeft · 1 : BitVec w → BitVec w) :=
    fun y => rotateRight_rotateLeft_one y hw
  calc (BitVec.rotateRight · 1)^[w] x = (BitVec.rotateRight · 1)^[w] ((BitVec.rotateLeft · 1)^[w] x) := by
        rw [rotateLeft_one_iterate_width x hw]
    _ = x := hinv.iterate w x

end

/-! ### Instructions that turn a part of the state -/

/-- `i` always completes, and takes the part `view` of the state through `turn`. -/
def Turns {α : Type} (i : Instr) (view : State → α) (turn : α → α) : Prop :=
  ∀ s, ∃ t, exec i s = .next t ∧ view t = turn (view s)

section
variable {α : Type} {i j : Instr} {view : State → α} {turn back : α → α}

theorem Turns.view_eq {s t : State} (h : Turns i view turn) (he : exec i s = .next t) : view t = turn (view s) := by
  obtain ⟨u, hu, hview⟩ := h s
  cases hu.symm.trans he
  exact hview

theorem Turns.view_back {s u t : State} (h : Turns i view turn) (hback : Turns j view back)
    (hinv : Function.LeftInverse back turn) (hu : exec i s = .next u) (ht : exec j u = .next t) : view t = view s := by
  rw [hback.view_eq ht, h.view_eq hu, hinv]

theorem execTimes_succ_next_iff {n : Nat} {s t : State} :
    execTimes (n + 1) i s = .next t ↔ ∃ u, exec i s = .next u ∧ execTimes n i u = .next t := by
  rw [execTimes]
  cases exec i s <;> simp

/-- A completed run of one instruction over and over ends with a completed run of it. -/
theorem exists_exec_of_execTimes {n : Nat} {s t : State} (h : execTimes (n + 1) i s = .next t) : ∃ u, exec i u = .next t := by
  induction n generalizing s with
  | zero =>
    obtain ⟨u, hu, ht⟩ := execTimes_succ_next_iff.1 h
    cases ht
    exact ⟨s, hu⟩
  | succ n ih =>
    obtain ⟨u, _, ht⟩ := execTimes_succ_next_iff.1 h
    exact ih ht

theorem Turns.exists_execTimes (h : Turns i view turn) (n : Nat) (s : State) :
    ∃ t, execTimes n i s = .next t ∧ view t = turn^[n] (view s) := by
  induction n generalizing s with
  | zero => exact ⟨s, rfl, rfl⟩
  | succ n ih =>
    obtain ⟨u, hu, hview⟩ := h s
    obtain ⟨t, ht, hturned⟩ := ih u
    exact ⟨t, execTimes_succ_next_iff.2 ⟨u, hu, ht⟩, by rw [hturned, hview, Function.iterate_succ_apply]⟩

/-- As many turns as make the identity restore the part turned. -/
theorem Turns.restores (h : Turns i view turn) {n : Nat} (hperiod : ∀ x, turn^[n] x = x) (s : State) :
    ∃ t, execTimes n i s = .next t ∧ view t = view s := by
  obtain ⟨t, ht, hview⟩ := h.exists_execTimes n s
  exact ⟨t, ht, hview.trans (hperiod _)⟩

end

/-! ### What each rotate turns -/

/-- The nine bits the rotates through Carry turn: C above A (45_rotates.md R242, R243). -/
def State.carryA (s : State) : BitVec 9 := s.a.cons s.f.c

theorem carryA_eq_iff {s t : State} : t.carryA = s.carryA ↔ t.a = s.a ∧ t.f.c = s.f.c := by
  refine ⟨fun h => ⟨?a, ?c⟩, fun ⟨ha, hc⟩ => by rw [State.carryA, State.carryA, ha, hc]⟩
  case a => simpa [State.carryA] using congrArg (BitVec.setWidth 8) h
  case c => simpa [State.carryA] using congrArg BitVec.msb h

theorem getLsbD_carryA (s : State) (k : Nat) : s.carryA.getLsbD k = if k = 8 then s.f.c else s.a.getLsbD k :=
  BitVec.getLsbD_cons ..

theorem turns_rlca : Turns .rlca State.a (BitVec.rotateLeft · 1) := by
  refine fun s => ⟨_, rfl, BitVec.eq_of_getLsbD_eq fun k hk => ?_⟩
  refine (getLsbD_shiftLeftWith s.a _ hk).trans ?_
  rw [getLsbD_rotateLeft_one _ (by decide) hk]
  exact (apply_ite s.a.getLsbD ..).symm

theorem turns_rrca : Turns .rrca State.a (BitVec.rotateRight · 1) := by
  refine fun s => ⟨_, rfl, BitVec.eq_of_getLsbD_eq fun k hk => ?_⟩
  refine (getLsbD_shiftRightWith s.a _ hk).trans ?_
  rw [getLsbD_rotateRight_one _ (by decide) hk]
  exact (apply_ite s.a.getLsbD ..).symm

theorem turns_rla : Turns .rla State.carryA (BitVec.rotateLeft · 1) := by
  refine fun s => ⟨_, rfl, BitVec.eq_of_getLsbD_eq fun k hk => ?_⟩
  rw [getLsbD_rotateLeft_one _ (by decide) hk, getLsbD_carryA, getLsbD_carryA]
  rcases Nat.lt_succ_iff_lt_or_eq.1 hk with hk | rfl
  case inl =>
    refine (if_neg hk.ne).trans ((getLsbD_shiftLeftWith s.a s.f.c hk).trans ?_)
    rcases k with _ | k
    · rfl
    · have hbelow : k ≠ 8 := by omega
      simp [hbelow]
  case inr => rfl

theorem turns_rra : Turns .rra State.carryA (BitVec.rotateRight · 1) := by
  refine fun s => ⟨_, rfl, BitVec.eq_of_getLsbD_eq fun k hk => ?_⟩
  rw [getLsbD_rotateRight_one _ (by decide) hk, getLsbD_carryA, getLsbD_carryA]
  rcases Nat.lt_succ_iff_lt_or_eq.1 hk with hk | rfl
  case inl =>
    refine (if_neg hk.ne).trans ((getLsbD_shiftRightWith s.a s.f.c hk).trans ?_)
    simp [hk.ne]
  case inr => rfl

/-! ### The laws -/

/-- The bit that left A at one end has entered at the other, and stands in C (90_conflicts.md C2). -/
theorem rlca_carry {s t : State} (h : exec .rlca s = .next t) : t.f.c = t.a.getLsbD 0 := by
  cases exec_next_iff.1 h
  exact (getLsbD_shiftLeftWith s.a _ (k := 0) (by decide)).symm

theorem rrca_carry {s t : State} (h : exec .rrca s = .next t) : t.f.c = t.a.getLsbD 7 := by
  cases exec_next_iff.1 h
  exact (getLsbD_shiftRightWith s.a _ (k := 7) (by decide)).symm

/-- Settles O55: rotations by one place to the left and right are inverse, and as many as there are bits are the identity. -/
theorem rotateLaws : Obligations.RotateLaws := by
  refine ⟨fun s u t => ?rightAfterLeft, fun s u t => ?leftAfterRight, fun s u t hu ht => carryA_eq_iff.1 ?rightAfterLeftCarry,
    fun s u t hu ht => carryA_eq_iff.1 ?leftAfterRightCarry, fun s => ?eightLeft, fun s => ?eightRight, fun s => ?nineLeft,
    fun s => ?nineRight⟩
  case rightAfterLeft => exact turns_rlca.view_back turns_rrca (rotateRight_rotateLeft_one · (by decide))
  case leftAfterRight => exact turns_rrca.view_back turns_rlca (rotateLeft_rotateRight_one · (by decide))
  case rightAfterLeftCarry => exact turns_rla.view_back turns_rra (rotateRight_rotateLeft_one · (by decide)) hu ht
  case leftAfterRightCarry => exact turns_rra.view_back turns_rla (rotateLeft_rotateRight_one · (by decide)) hu ht
  case eightLeft =>
    obtain ⟨t, ht, ha⟩ := turns_rlca.restores (rotateLeft_one_iterate_width · (by decide)) s
    obtain ⟨u, hlast⟩ := exists_exec_of_execTimes ht
    exact ⟨t, ht, ha, ha ▸ rlca_carry hlast⟩
  case eightRight =>
    obtain ⟨t, ht, ha⟩ := turns_rrca.restores (rotateRight_one_iterate_width · (by decide)) s
    obtain ⟨u, hlast⟩ := exists_exec_of_execTimes ht
    exact ⟨t, ht, ha, ha ▸ rrca_carry hlast⟩
  case nineLeft =>
    obtain ⟨t, ht, hview⟩ := turns_rla.restores (rotateLeft_one_iterate_width · (by decide)) s
    exact ⟨t, ht, carryA_eq_iff.1 hview⟩
  case nineRight =>
    obtain ⟨t, ht, hview⟩ := turns_rra.restores (rotateRight_one_iterate_width · (by decide)) s
    exact ⟨t, ht, carryA_eq_iff.1 hview⟩

end Sys2Proof.Machine
end

section
/-! PROOFS. The relative jumps (O56 to O59): 46_jumps.md R250 to R255. What the condition evaluates to decides what the jump does. -/

namespace Sys2Proof.Machine

section
variable {i : Instr} {cond : Option Cond} {e8 : Byte} {s : State}

/-- A relative jump is an opcode and its offset byte (30_encoding.md R100). -/
theorem length_of_jump (hb : bodyOf i = .jump cond e8) : i.length = 2 := by
  rw [Instr.length, tuple_eq_bodyOf_tuple, hb]
  rfl

/-- Where the condition is supported: taken, `pc` and the cycle of its write; not taken, nothing. -/
theorem jump_of_evalCond_ok {taken : Bool} (hb : bodyOf i = .jump cond e8)
    (heval : evalCond s.jrCarryMode s.f cond = .ok taken) :
    (taken = true → ∃ t, exec i s = .next t ∧ (t.pc.toNat : Int) = (s.pc.toNat + e8.toInt) % 2 ^ 16 ∧
      t = { s with pc := t.pc, cycles := t.cycles } ∧ StepCycles i s t 3) ∧
    (taken = false → exec i s = .next s ∧ StepCycles i s s 2) := by
  have hlen : i.length = 2 := length_of_jump hb
  refine ⟨?taken, ?notTaken⟩
  case taken =>
    rintro rfl
    have hexec : exec i s = .next ((s.setPc (jumpTarget s.pc e8)).tick 1) := exec_next_iff.2 (hb ▸ .jumpTaken heval)
    refine ⟨_, hexec, jumpTarget_toNat s.pc e8, rfl, ?_⟩
    rw [StepCycles, hlen]
    exact ⟨by decide, rfl⟩
  case notTaken =>
    rintro rfl
    refine ⟨exec_next_iff.2 (hb ▸ .jumpNotTaken heval), ?_⟩
    rw [StepCycles, hlen]
    exact ⟨le_rfl, (BitVec.add_zero s.cycles).symm⟩

/-- An unsupported condition raises `ExecutionError`, and only the record is written (60_exceptions.md R302). -/
theorem jump_of_evalCond_error {what : Cond} (hb : bodyOf i = .jump cond e8)
    (heval : evalCond s.jrCarryMode s.f cond = .error what) :
    exec i s = .fault (.executionError what { s with fault := some (.executionError what) }) := by
  rw [exec_of_bodyOf hb, Body.run, jumpRelative, heval]
  rfl

end

/-- `JR_CARRY_MODE` decides whether the Carry conditions are supported (46_jumps.md R255, decision D11). -/
theorem evalCond_carry_implemented {s : State} (h : s.jrCarryMode = .implemented) :
    evalCond s.jrCarryMode s.f (some .nc) = .ok (!s.f.c) ∧ evalCond s.jrCarryMode s.f (some .c) = .ok s.f.c := by
  rw [h]
  exact ⟨rfl, rfl⟩

theorem evalCond_carry_fault {s : State} (h : s.jrCarryMode = .fault) :
    evalCond s.jrCarryMode s.f (some .nc) = .error .nc ∧ evalCond s.jrCarryMode s.f (some .c) = .error .c := by
  rw [h]
  exact ⟨rfl, rfl⟩

/-- Settles O56: the absent condition always holds. -/
theorem relativeJump : Obligations.RelativeJump := fun _ _ => ⟨rfl, (jump_of_evalCond_ok rfl rfl).1 rfl⟩

/-- Settles O57: NZ and Z are supported whatever the parameter, and evaluate to the flag or its negation. -/
theorem conditionalJumpOnZero : Obligations.ConditionalJumpOnZero :=
  ⟨fun _ _ => jump_of_evalCond_ok rfl rfl, fun _ _ => jump_of_evalCond_ok rfl rfl⟩

/-- Settles O58: with the parameter `implemented`, NC and C evaluate to the flag or its negation. -/
theorem conditionalJumpOnCarryWhenImplemented : Obligations.ConditionalJumpOnCarryWhenImplemented :=
  ⟨fun _ _ hmode => jump_of_evalCond_ok rfl (evalCond_carry_implemented hmode).1,
    fun _ _ hmode => jump_of_evalCond_ok rfl (evalCond_carry_implemented hmode).2⟩

/-- Settles O59: with the parameter `fault`, NC and C are unsupported whatever the flags. -/
theorem carryJumpFaultsWhenUnsupported : Obligations.CarryJumpFaultsWhenUnsupported := by
  intro e8 s hmode
  obtain ⟨hnc, hc⟩ := evalCond_carry_fault hmode
  exact ⟨jump_of_evalCond_error rfl hnc, jump_of_evalCond_error rfl hc⟩

end Sys2Proof.Machine
end

section
/-! PROOFS. NOP and STOP (O60): 47_control.md R270 and R271. -/

namespace Sys2Proof.Machine

/-- A halted state enables no step, whether or not a fault is recorded (40_step_cycle.md R130, decision D18). -/
theorem step_of_halted {s : State} (h : s.halted = true) : step s = .refused .noStepHalted := by
  simp [step, State.noStep, h]

/-- Settles O60: each body completes by its one rule, and its table row gives the one cycle, that of its opcode. -/
theorem nopAndStop : Obligations.NopAndStop := by
  intro s
  have hnop : Body.nop.Completes s s := .nop
  have hstop : Body.stop.Completes s s.halt := .stop
  exact ⟨⟨exec_next_iff.2 hnop, stepCycles_of_completes rfl rfl hnop⟩,
    s.halt, exec_next_iff.2 hstop, rfl, stepCycles_of_completes rfl rfl hstop, step_of_halted (State.halt_halted s)⟩

end Sys2Proof.Machine
end

section
/-! PROOFS. Which bodies raise which fault (O18), and where `DecodeError` is raised (O15): 60_exceptions.md R301 to R303. -/

namespace Sys2Proof.Machine

/-! ### The operation body -/

/-- The faults a body may raise, by its row of the opcode table (60_exceptions.md R302, R303): `AddressError` by the direction of its
access, `ExecutionError` for its own condition where the parameter leaves that unsupported, and no `DecodeError`. -/
def Body.MayRaise (b : Body) (s : State) : FaultRecord → Prop
  | .decodeError _ => False
  | .executionError what => b.tuple.condition = some what ∧ (what = .nc ∨ what = .c) ∧ s.jrCarryMode = .fault
  | .addressError _ .read => b.tuple.mode ∈ [.memPairToReg, .memPairToRegInc, .memPairToRegDec, .memPair]
  | .addressError _ .write => b.tuple.mode ∈ [.regToMemPair, .pairToMemImm16]

/-- The unsupported conditions are the two on Carry, under the parameter `fault` (46_jumps.md R253 to R255). -/
theorem evalCond_eq_error {mode : JrCarryMode} {f : Flags} {cond : Option Cond} {what : Cond}
    (h : evalCond mode f cond = .error what) : cond = some what ∧ (what = .nc ∨ what = .c) ∧ mode = .fault := by
  match cond, mode with
  | some .nc, .fault | some .c, .fault =>
    cases h
    simp
  | some .nc, .implemented | some .c, .implemented | some .nz, _ | some .z, _ | none, _ => cases h

/-- What a failing body raises is among the faults of its row. -/
theorem run_fault_mayRaise {b : Body} {s : State} {f : Fault} (h : b.run s = .fault f) : b.MayRaise s f.record := by
  cases b with
  | fromPair dst p =>
    rcases loadFromPair_cases dst p s with ⟨_, _, he⟩ | ⟨_, he⟩ <;> cases he.symm.trans h
    simp [Body.MayRaise, Body.tuple]
  | toPair p src =>
    rcases storeToPair_cases p src s with ⟨_, _, he⟩ | ⟨_, he⟩ <;> cases he.symm.trans h
    simp [Body.MayRaise, Body.tuple]
  | stepHL delta =>
    rcases loadThenStepHL_cases delta s with ⟨_, _, he⟩ | ⟨_, he⟩ <;> cases he.symm.trans h
    simp only [raise_record, Body.MayRaise, Body.tuple]
    split <;> decide
  | storeSP a16 =>
    rcases storeWord_cases s.sp a16 s with ⟨_, _, _, _, he⟩ | ⟨_, _, _, he⟩ | ⟨_, he⟩ <;> cases he.symm.trans h <;>
      simp [Body.MayRaise, Body.tuple]
  | incAtHL =>
    rcases modifyAtHL_cases incrementValue inc8Flags s with ⟨_, _, _, _, he⟩ | ⟨_, he⟩ <;> cases he.symm.trans h
    simp [Body.MayRaise, Body.tuple]
  | decAtHL =>
    rcases modifyAtHL_cases decrementValue dec8Flags s with ⟨_, _, _, _, he⟩ | ⟨_, he⟩ <;> cases he.symm.trans h
    simp [Body.MayRaise, Body.tuple]
  | jump cond e8 =>
    rcases jumpRelative_cases cond e8 s with ⟨_, he⟩ | ⟨_, he⟩ | ⟨what, heval, he⟩ <;> cases he.symm.trans h
    exact evalCond_eq_error heval
  | _ => cases h

theorem exec_fault_mayRaise {i : Instr} {s : State} {f : Fault} (h : exec i s = .fault f) :
    (bodyOf i).MayRaise s f.record :=
  run_fault_mayRaise ((exec_eq_run i s).symm.trans h)

/-- Settles O18: a case for each fault that the instruction's row admits. -/
theorem bodyFaultsOnlyAsListed : Obligations.BodyFaultsOnlyAsListed := by
  intro i s f h
  have hraise := exec_fault_mayRaise h
  rw [tuple_eq_bodyOf_tuple]
  match f with
  | .decodeError _ _ => exact hraise.elim
  | .executionError what left =>
    obtain ⟨hcond, rfl | rfl, hmode⟩ := hraise
    · exact .inr (.inr (.inl ⟨left, rfl, hcond, hmode⟩))
    · exact .inr (.inr (.inr ⟨left, rfl, hcond, hmode⟩))
  | .addressError addr .read left => exact .inl ⟨addr, left, rfl, hraise⟩
  | .addressError addr .write left => exact .inr (.inl ⟨addr, left, rfl, hraise⟩)

/-! ### The fetch -/

theorem fetchByte_error_record {s : State} {f : Fault} (h : fetchByte s = .error f) :
    ∃ addr, f.record = .addressError addr .read := by
  rcases fetchByte_cases s with ⟨_, _, he⟩ | ⟨_, he⟩ <;> cases he.symm.trans h
  exact ⟨_, rfl⟩

/-- No immediate byte raises anything but the `AddressError` of its fetch. -/
theorem fetchImmediates_error_record {count : Nat} {s : State} {f : Fault} (h : fetchImmediates count s = .error f) :
    ∃ addr, f.record = .addressError addr .read := by
  match count with
  | 0 => cases h
  | 1 =>
    cases h1 : fetchByte s with
    | error g =>
      cases (fetchImmediates_of_fetchByte_error (by decide) h1).symm.trans h
      exact fetchByte_error_record h1
    | ok r1 => simp [fetchImmediates, h1] at h
  | k + 2 =>
    cases h1 : fetchByte s with
    | error g =>
      cases (fetchImmediates_of_fetchByte_error (by omega) h1).symm.trans h
      exact fetchByte_error_record h1
    | ok r1 =>
      cases h2 : fetchByte r1.2 with
      | error g =>
        simp only [fetchImmediates, h1, h2] at h
        cases h
        exact fetchByte_error_record h2
      | ok r2 => simp [fetchImmediates, h1, h2] at h

/-- An opcode without an entry ends the fetch, its own byte fetched and counted. -/
theorem fetchInstr_of_absent {s : State} {op : Byte} (hop : busRead s s.pc.toNat = some op) (hl : lookup op = none) :
    fetchInstr s = .error (raise (.decodeError op) (s.fetched 1)) := by
  have h1 : fetchByte s = .ok (op, s.fetched 1) := fetchByte_ok hop
  simp [fetchInstr, h1, hl]

/-- Everything a failing fetch can raise: `DecodeError` for the absent opcode at `pc`, or `AddressError` for a byte outside the map. -/
theorem fetchInstr_error_record {s : State} {f : Fault} (h : fetchInstr s = .error f) :
    (∃ op, busRead s s.pc.toNat = some op ∧ lookup op = none ∧ f.record = .decodeError op) ∨
      ∃ addr, f.record = .addressError addr .read := by
  rcases fetchByte_cases s with ⟨op, hop, _⟩ | ⟨_, he⟩
  · cases hl : lookup op with
    | none =>
      cases (fetchInstr_of_absent hop hl).symm.trans h
      exact .inl ⟨op, hop, hl, rfl⟩
    | some build =>
      cases hf : fetchImmediates (immediateCount build) (s.fetched 1) with
      | error g =>
        rw [fetchInstr_of_opcode hop hl, hf] at h
        cases h
        exact .inr (fetchImmediates_error_record hf)
      | ok r =>
        rw [fetchInstr_of_opcode hop hl, hf] at h
        cases h
  · cases (fetchInstr_of_fetchByte_error he).symm.trans h
    exact .inr ⟨_, rfl⟩

/-- Settles O15: the fetch raises `DecodeError` for an absent opcode; nothing else of the fetch does, and no body. -/
theorem absentOpcodeRaisesDecodeError : Obligations.AbsentOpcodeRaisesDecodeError := by
  refine ⟨fun s op hs hop hl => step_of_fetchInstr_error hs (fetchInstr_of_absent hop hl), fun s left op h => ?_⟩
  rcases step_cases s with ⟨_, r, he⟩ | ⟨_, i, u, _, he⟩ | ⟨_, f, hf, he⟩
  · cases he.symm.trans h
  · exact (exec_fault_mayRaise (he.symm.trans h)).elim
  · cases he.symm.trans h
    rcases fetchInstr_error_record hf with ⟨op', hop, hl, hrec⟩ | ⟨addr, hrec⟩ <;> cases hrec
    exact ⟨hop, hl⟩

end Sys2Proof.Machine
end

section
/-! PROOFS. The driver's register writes (O30): 60_exceptions.md R318, 10_state.md R21, R24 to R28. -/

namespace Sys2Proof.Machine

section
variable (s : State) (v : Int) (r : RegisterType)

@[simp] theorem State.setRegister_cycles : (s.setRegister v r).cycles = s.cycles := by cases r <;> simp [State.setRegister]
@[simp] theorem State.setRegister_mem : (s.setRegister v r).mem = s.mem := by cases r <;> simp [State.setRegister]
@[simp] theorem State.setRegister_cart : (s.setRegister v r).cart = s.cart := by cases r <;> simp [State.setRegister]
@[simp] theorem State.setRegister_fault : (s.setRegister v r).fault = s.fault := by cases r <;> simp [State.setRegister]
@[simp] theorem State.setRegister_jrCarryMode : (s.setRegister v r).jrCarryMode = s.jrCarryMode := by
  cases r <;> simp [State.setRegister]

theorem setRegister_control : SameControl s (s.setRegister v r) := by simp [SameControl, setRegister_halted]

theorem setRegister_sp (h : r ≠ .sp) : (s.setRegister v r).sp = s.sp := by
  cases r with
  | sp => exact absurd rfl h
  | _ => simp [State.setRegister, State.setR16_sp]

theorem setRegister_pc (h : r ≠ .pc) : (s.setRegister v r).pc = s.pc := by
  cases r with
  | pc => exact absurd rfl h
  | _ => simp [State.setRegister]

theorem setRegister_f (hf : r ≠ .f) (haf : r ≠ .af) : (s.setRegister v r).f = s.f := by
  cases r with
  | f => exact absurd rfl hf
  | af => exact absurd rfl haf
  | _ => simp [State.setRegister]

/-- A write leaves the 8-bit registers that the name does not cover. -/
theorem setRegister_r8 {q : R8} (h : r.covers q = false) : (s.setRegister v r).r8 q = s.r8 q := by
  cases r with
  | a | b | c | d | e | h | l => exact s.setR8_r8_other _ q _ (beq_eq_false_iff_ne.1 h)
  | af => exact (State.setFlags_r8 ..).trans (s.setR8_r8_other .a q _ (beq_eq_false_iff_ne.1 h))
  | bc | de | hl => exact s.setR16_r8_other _ _ q (by simpa [RegisterType.covers, R16.halves] using h)
  | sp => exact s.setR16_r8_other .sp _ q List.not_mem_nil
  | f | pc => simp [State.setRegister]

end

/-- An integer at a data port of `w` bits reads back modulo `2 ^ w`. -/
theorem ofInt_toNat (w : Nat) (v : Int) : ((BitVec.ofInt w v).toNat : Int) = v % 2 ^ w := by
  rw [BitVec.toNat_ofInt, Int.toNat_of_nonneg (Int.emod_nonneg v (by positivity))]
  simp

/-- A write of F reads back without its low nibble. -/
theorem setRegister_getRegister_f (s : State) (v : Int) :
    ((s.setRegister v .f).getRegister .f : Int) = v % 2 ^ 8 / 16 * 16 := by
  simp only [State.setRegister, State.getRegister, State.setFlags_f, ofByte_toByte_toNat]
  rw [← ofInt_toNat]
  simp

/-- A write of AF reads back without the low nibble of F, its low half. -/
theorem setRegister_getRegister_af (s : State) (v : Int) :
    ((s.setRegister v .af).getRegister .af : Int) = v % 2 ^ 16 / 16 * 16 := by
  have hv := ofInt_toNat 16 v
  simp only [State.setRegister, State.getRegister, af_toNat, State.setFlags_f, State.setFlags_a, ofByte_toByte_toNat]
  rw [show (s.setR8 .a (highByte (BitVec.ofInt 16 v))).a = highByte (BitVec.ofInt 16 v) from rfl, highByte_toNat,
    lowByte_toNat]
  omega

/-- Settles O30: the read-back by the register's width, and the frame field by field. -/
theorem driverRegisterWriteReadsBackMasked : Obligations.DriverRegisterWriteReadsBackMasked := by
  intro s v r
  refine ⟨?readBack, fun q hq => setRegister_r8 s v r hq, setRegister_f s v r, setRegister_sp s v r,
    setRegister_pc s v r, s.setRegister_cycles v r, sameMemory_of_eq (s.setRegister_mem v r) (s.setRegister_cart v r),
    setRegister_control s v r⟩
  cases r with
  | a | b | c | d | e | h | l => exact ofInt_toNat 8 v
  | f => exact setRegister_getRegister_f s v
  | af => exact setRegister_getRegister_af s v
  | bc | de | hl =>
    simp only [State.setRegister, State.getRegister, State.setR16_r16_same]
    exact ofInt_toNat 16 v
  | sp | pc => exact ofInt_toNat 16 v

end Sys2Proof.Machine
end

section
/-! PROOFS. Everything a driver's call can do (O32): 60_exceptions.md R305, R318. -/

namespace Sys2Proof.Machine

/-- What every completed driver call keeps. -/
structure DriverFrame (s t : State) : Prop where
  control : SameControl s t
  cycles : t.cycles = s.cycles ∨ t.cycles = s.cycles + 1
  romOnly : s.cart.romOnly = true → t.cart = s.cart
  inv : s.Inv → t.Inv

theorem driverFrame_of_sameMemory {s t : State} (hm : t.mem = s.mem) (hc : t.cart = s.cart) (hcontrol : SameControl s t)
    (hcycles : t.cycles = s.cycles ∨ t.cycles = s.cycles + 1) : DriverFrame s t :=
  ⟨hcontrol, hcycles, fun _ => hc, (inv_congr hm hc).2⟩

theorem driverFrame_of_memWrite {s t : State} {addr : Int} {v : Byte} (h : memWrite s addr v = .ok t) :
    DriverFrame s t :=
  have frame := memWrite_frame h
  ⟨frame.control, .inr frame.cycles, frame.romOnly, fun hi => memWrite_inv hi h⟩

/-- The bus write is the CPU-side write less its cycle. -/
theorem driverFrame_of_busWrite {s t : State} {addr : Int} {v : Byte} (h : busWrite s addr v = some t) :
    DriverFrame s t :=
  have frame := memWrite_frame (memWrite_of_busWrite h)
  ⟨frame.control, .inl (by simpa [State.later] using frame.cycles), frame.romOnly, fun hi => busWrite_inv hi h⟩

/-- An access that is never counted fails as 60_exceptions.md R303 says. -/
theorem faultsWith_raise_uncounted (s : State) (addr : Int) (dir : AccessDir) :
    FaultsWith s addr dir (raise (.addressError addr dir) s) :=
  ⟨_, rfl, .inl rfl, rfl⟩

/-- Everything a driver call can do: complete within its frame, or fail at an address outside the map. -/
theorem driverCall_cases (call : DriverCall) (s : State) :
    (∃ t, driverCall call s = .ok t ∧ DriverFrame s t) ∨
      ∃ f addr dir, driverCall call s = .error f ∧ ¬InMap addr ∧ FaultsWith s addr dir f := by
  cases call with
  | setRegister v r =>
    exact .inl ⟨_, rfl, driverFrame_of_sameMemory (by simp) (by simp) (setRegister_control s v r) (by simp)⟩
  | setFlag which v => exact .inl ⟨_, rfl, driverFrame_of_sameMemory rfl rfl ⟨rfl, rfl, rfl⟩ (.inl rfl)⟩
  | cpuRead addr =>
    rcases memRead_cases s addr with ⟨v, _, he⟩ | ⟨hn, he⟩
    · exact .inl ⟨s.tick 1, by simp [driverCall, cpuReadByte, he],
        driverFrame_of_sameMemory rfl rfl ⟨rfl, rfl, rfl⟩ (.inr rfl)⟩
    · exact .inr ⟨_, addr, .read, by simp [driverCall, cpuReadByte, he], hn, faultsWith_raise s addr .read⟩
  | cpuWrite v addr =>
    by_cases hm : InMap addr
    · obtain ⟨t, ht⟩ := memWrite_isOk s (dataPort v) hm
      exact .inl ⟨t, ht, driverFrame_of_memWrite ht⟩
    · obtain ⟨f, he, hf⟩ := memWrite_outside s (dataPort v) hm
      exact .inr ⟨f, addr, .write, he, hm, hf⟩
  | busRead addr =>
    by_cases hm : InMap addr
    · obtain ⟨v, hv⟩ := busRead_isSome s hm
      exact .inl ⟨s, by simp [driverCall, busReadByte, hv],
        driverFrame_of_sameMemory rfl rfl ⟨rfl, rfl, rfl⟩ (.inl rfl)⟩
    · exact .inr ⟨_, addr, .read, by simp [driverCall, busReadByte, busRead_outside s hm], hm,
        faultsWith_raise_uncounted s addr .read⟩
  | busWrite v addr =>
    by_cases hm : InMap addr
    · obtain ⟨t, ht⟩ := busWrite_isSome s (dataPort v) hm
      exact .inl ⟨t, by simp [driverCall, busWriteByte, ht], driverFrame_of_busWrite ht⟩
    · exact .inr ⟨_, addr, .write, by simp [driverCall, busWriteByte, busWrite_outside s _ hm], hm,
        faultsWith_raise_uncounted s addr .write⟩

theorem driverCall_frame {call : DriverCall} {s t : State} (h : driverCall call s = .ok t) : DriverFrame s t := by
  rcases driverCall_cases call s with ⟨u, he, frame⟩ | ⟨f, _, _, he, _⟩ <;> cases he.symm.trans h
  exact frame

/-- A failing access leaves memory and cartridge, so the invariant with them. -/
theorem FaultsWith.inv_left {s : State} {addr : Int} {dir : AccessDir} {f : Fault} (h : FaultsWith s addr dir f)
    (hi : s.Inv) : f.left.Inv := by
  obtain ⟨left, rfl, _, hleft⟩ := h
  have hm : left.mem = s.mem := by rw [hleft]
  have hc : left.cart = s.cart := by rw [hleft]
  exact (inv_congr hm hc).2 hi

/-- Settles O32: the frame of the calls that complete, and the one fault of those that fail. -/
theorem driverCallKeepsControlAndInvariant : Obligations.DriverCallKeepsControlAndInvariant := by
  refine ⟨fun call s t h => ?completes, fun call s f h => ?fails⟩
  case completes =>
    obtain ⟨⟨hhalted, hfault, hmode⟩, hcycles, _, hinv⟩ := driverCall_frame h
    exact ⟨hhalted, hfault, hmode, hcycles, hinv⟩
  case fails =>
    rcases driverCall_cases call s with ⟨t, he, _⟩ | ⟨g, addr, dir, he, hn, hf⟩ <;> cases he.symm.trans h
    exact ⟨⟨addr, dir, hn, hf⟩, hf.inv_left⟩

end Sys2Proof.Machine
end

section
/-! PROOFS. Construction, the first fetch and the states reached from there (O1, O2, O5): 70_reset_and_hazards.md R341, R342, R344, R347. -/

namespace Sys2Proof.Machine

/-- Construction leaves 0 under all fourteen register names, the views F, AF, BC, DE and HL among them. -/
theorem construct_getRegister (mode : JrCarryMode) (busInit : Memory) (cart : Cart) (r : RegisterType) :
    (State.construct mode busInit cart).getRegister r = 0 := by
  have hf : (State.construct mode busInit cart).f.toByte.toNat = 0 := toByte_toNat _
  cases r with
  | f => exact hf
  | af =>
    rw [State.getRegister, af_toNat, hf]
    rfl
  | bc | de | hl => exact combine_toNat 0 0
  | _ => rfl

/-- Settles O1: the values the construction writes down, and the views of them. -/
theorem constructionLeavesTheStatedValues : Obligations.ConstructionLeavesTheStatedValues := by
  intro mode busInit cart
  have hreg := construct_getRegister mode busInit cart
  exact ⟨fun r => by cases r <;> rfl, rfl, hreg .f, hreg .af, hreg .bc, hreg .de, hreg .hl, rfl, rfl, rfl, rfl, rfl⟩

/-- Settles O2: `pc` is 0x0000, an address of the cartridge. -/
theorem firstFetchReadsCartridgeByteZero : Obligations.FirstFetchReadsCartridgeByteZero := by
  intro mode busInit cart
  have hcart : InCart 0x0000 := by decide
  exact fetchByte_ok (busRead_cart (State.construct mode busInit cart) hcart)

/-- A step that completes writes neither the fault record nor the parameter: of the bodies `STOP` alone writes control, and it writes
`halted`. -/
theorem step_fault_jrCarryMode {s t : State} (h : step s = .next t) :
    t.fault = s.fault ∧ t.jrCarryMode = s.jrCarryMode := by
  obtain ⟨_, i, u, hf, hexec⟩ := step_next_iff.1 h
  rw [fetchInstr_ok_state hf] at hexec
  by_cases hi : i = .stop
  · subst hi
    cases exec_next_iff.1 hexec
    exact ⟨rfl, rfl⟩
  · obtain ⟨_, hfault, hmode⟩ := completes_control (mt (bodyOf_eq_stop_iff i).1 hi) (exec_next_iff.1 hexec)
    exact ⟨hfault, hmode⟩

/-- Settles O5, by induction on the run: construction, steps and driver calls, each by what it keeps. -/
theorem reachableStatesMeetTheInvariant : Obligations.ReachableStatesMeetTheInvariant := by
  intro mode busInit cart hm hb hi hc s hs
  induction hs with
  | construct => exact ⟨construct_inv mode hm hb hi hc, rfl, rfl, fun _ => rfl⟩
  | step _ h ih =>
    obtain ⟨hinv, hmode, hfault, hcart⟩ := ih
    obtain ⟨hfault', hmode'⟩ := step_fault_jrCarryMode h
    refine ⟨stepKeepsTheInvariant _ _ hinv h, hmode'.trans hmode, hfault'.trans hfault, fun hrom => ?_⟩
    exact (step_cart (by rwa [hcart hrom]) h).trans (hcart hrom)
  | driver call _ h ih =>
    obtain ⟨hinv, hmode, hfault, hcart⟩ := ih
    obtain ⟨⟨_, hfault', hmode'⟩, _, hcart', hinv'⟩ := driverCall_frame h
    refine ⟨hinv' hinv, hmode'.trans hmode, hfault'.trans hfault, fun hrom => ?_⟩
    exact (hcart' (by rwa [hcart hrom])).trans (hcart hrom)

end Sys2Proof.Machine
end
